-- ==== Sys2Proof/Word.lean ====
section
/-! DEFINITION. The value types of the core: byte, AES column, `Block128`, `Wide`, `Sched`
(spec 00_scope.md R16, R18). -/

namespace Sys2Proof

/-- A byte, bits 7 down to 0 (R16). -/
abbrev Byte := BitVec 8

/-- Four consecutive bytes: one column of the AES state (20_memory.md R44), one word of the
key expansion (41_aes128_scalar.md R86). -/
structure Column where
  b0 : Byte
  b1 : Byte
  b2 : Byte
  b3 : Byte
  deriving DecidableEq, Repr, Inhabited

/-- A `Block128`: 16 bytes, byte `4·c + r` being byte `r` of column `c` (R18, R44). It has no numeric
value of its own (R18), so it is a record of bytes and not a number. -/
structure Block128 where
  c0 : Column
  c1 : Column
  c2 : Column
  c3 : Column
  deriving DecidableEq, Repr, Inhabited

/-- A `Wide`: its lanes in lane order, lane 0 first (R18, R43). On a core of degree D every wide
value has exactly D lanes; `WideShaped` says so and every step keeps it. -/
abbrev Wide := List Block128

/-- A `Sched`: the 11 round keys `rk[0]` to `rk[10]` of AES-128 (R18). -/
abbrev Sched := Vector Block128 11

/-- The column of four zero bytes. -/
def Column.zero : Column := ⟨0, 0, 0, 0⟩

/-- `zeros(16)` (R16). -/
def Block128.zero : Block128 := ⟨.zero, .zero, .zero, .zero⟩

/-- Bytewise exclusive or of two columns (R16). -/
def Column.xor (a b : Column) : Column :=
  ⟨a.b0 ^^^ b.b0, a.b1 ^^^ b.b1, a.b2 ^^^ b.b2, a.b3 ^^^ b.b3⟩

/-- Bytewise exclusive or of two blocks (R16, R74, R80). -/
def Block128.xor (a b : Block128) : Block128 :=
  ⟨a.c0.xor b.c0, a.c1.xor b.c1, a.c2.xor b.c2, a.c3.xor b.c3⟩

end Sys2Proof
end

