-- ==== Sys2Proof/Config.lean ====
section
/-! DEFINITION. What an instance of the core fixes (the degree D and the sizes it gives), the fixed
constants, and the free values: what the spec leaves without a value (00_scope.md R11 to R14,
10_state.md R35, 93_implementation_defined.md part 2). -/

namespace Sys2Proof

/-- The degree D: exactly 1, 2 or 4 (R11; no other value is a configuration, 92 D3). -/
inductive Degree where
  | x1
  | x2
  | x4
  deriving DecidableEq, Repr

/-- `LANES` = D (R12). -/
def Degree.lanes : Degree → Nat
  | .x1 => 1
  | .x2 => 2
  | .x4 => 4

/-- `WB` = 16·D, the bytes of a wide block (R12). -/
def Degree.wideBytes (d : Degree) : Nat := 16 * d.lanes

/-- `SB` = 64·D, the bytes of a superblock; `block_size` (R12, R13). -/
def Degree.superBytes (d : Degree) : Nat := 64 * d.lanes

namespace Config

/-- `key_size` = 16 (R13). -/
def keySize : Nat := 16

/-- `nonce_size` = 16 (R13). -/
def nonceSize : Nat := 16

/-- `tag_size` = 16 (R13). -/
def tagSize : Nat := 16

/-- The padding byte, 0x01 for every D (R14, R106). -/
def padByte : Byte := 0x01

/-- FREE VALUE. The bits of a block of a register that holds no value (R35; 93 part 2: any value):
`freeBlock draw register part`. No body: nothing is known of it (log 3). -/
opaque freeBlock : Nat → Nat → Nat → Block128

/-- FREE VALUE. The number in a counting register that holds no value (R35, R37): `freeNat draw
register`. No body (log 3). -/
opaque freeNat : Nat → Nat → Nat

/-- FREE VALUE. A byte of MSG below MSG_LEN that the host did not supply (93 part 2: any value for
the tag): `freeByte draw offset`. No body (log 10). -/
opaque freeByte : Nat → Nat → Byte

end Config

end Sys2Proof
end

