-- ==== Sys2Proof/Syntax.lean ====
section
/-! DEFINITION. The operations of the core, one constructor per row of spec/opcode_table.json, and
the code words of the three formats (30_encoding.md R63 to R66). -/

namespace Sys2Proof

/-- The 18 operations (R66). No code word carries an operand field (R62): a command takes its
operands from the ports, a phase from registers, a unit operation from the unit's operand wires. -/
inductive Instr where
  /-- INIT: format H 0x01 (45_commands.md R122). -/
  | init
  /-- MAC: format H 0x02 (45_commands.md R123). -/
  | mac
  /-- P_KS: format P4 0x1 (42_key_schedule.md R97). -/
  | pKs
  /-- P_START: format P4 0x2 (43_absorption.md R104). -/
  | pStart
  /-- P_FULL: format P4 0x3 (43_absorption.md R105). -/
  | pFull
  /-- P_PAD: format P4 0x4 (43_absorption.md R106). -/
  | pPad
  /-- P_BLANK: format P4 0x5 (43_absorption.md R107). -/
  | pBlank
  /-- P_MOD: format P4 0x6 (44_finalization.md R113). -/
  | pMod
  /-- P_FOLD: format P4 0x7 (44_finalization.md R114). -/
  | pFold
  /-- P_NONCE: format P4 0x8 (44_finalization.md R115). -/
  | pNonce
  /-- P_EMIT: format P4 0x9 (44_finalization.md R116). -/
  | pEmit
  /-- WZERO: format U3 0b000 (40_block_primitives.md R73). -/
  | wzero
  /-- WXOR: format U3 0b001 (40_block_primitives.md R74). -/
  | wxor
  /-- WAESR: format U3 0b010 (40_block_primitives.md R75). -/
  | waesr
  /-- WLOAD: format U3 0b011 (40_block_primitives.md R81). -/
  | wload
  /-- WSTORE: format U3 0b100 (40_block_primitives.md R82). -/
  | wstore
  /-- KEYEXP: format U3 0b101 (41_aes128_scalar.md R86). -/
  | keyexp
  /-- AESENC: format U3 0b110 (41_aes128_scalar.md R87). -/
  | aesenc
  deriving DecidableEq, Repr

/-- A code word on one of the three wires: the host command port (format H, R63), the phase register
(format P4, R64), the unit select (format U3, R65). Three code spaces, so a code is never ambiguous
(R66). -/
inductive CodeWord where
  | h (c : BitVec 8)
  | p4 (c : BitVec 4)
  | u3 (c : BitVec 3)
  deriving DecidableEq, Repr

end Sys2Proof
end

