-- ==== Sys2Proof/WellFormed.lean ====
section
/-! DEFINITION. What is checked of a code word, a wide value and a byte buffer before it has a
meaning (30_encoding.md R66, R67; 40_block_primitives.md R81). -/

namespace Sys2Proof

/-- Every operation is well formed: no code has an operand field, so there is nothing to check
(R62). -/
def Instr.wellFormed : Instr → Bool
  | .init => true
  | .mac => true
  | .pKs => true
  | .pStart => true
  | .pFull => true
  | .pPad => true
  | .pBlank => true
  | .pMod => true
  | .pFold => true
  | .pNonce => true
  | .pEmit => true
  | .wzero => true
  | .wxor => true
  | .waesr => true
  | .wload => true
  | .wstore => true
  | .keyexp => true
  | .aesenc => true

/-- A code word names an operation: format H 0x01 or 0x02, format P4 0x1 to 0x9, format U3 0b000 to
0b110 (R63 to R67; P4 0x0 is the waiting state P_IDLE and no step, R66). -/
def CodeWord.wellFormed : CodeWord → Bool
  | .h c => c == 0x01 || c == 0x02
  | .p4 c => decide (1 ≤ c.toNat) && decide (c.toNat ≤ 9)
  | .u3 c => decide (c.toNat ≤ 6)

/-- A wide value of a core of degree `d` has exactly D lanes (R18). -/
abbrev WideShaped (d : Degree) (w : Wide) : Prop := w.length = d.lanes

/-- The operand of WLOAD is a byte array of exactly 16·D bytes (R81). -/
def bufferWellFormed (d : Degree) (buf : List Byte) : Bool := buf.length == d.wideBytes

end Sys2Proof
end

