-- ==== Sys2Proof/Decode.lean ====
section
/-! DEFINITION. The decoder of the three code spaces, total and rejecting by name, and the encoder
(30_encoding.md R63 to R67, spec/opcode_table.json). -/

namespace Sys2Proof

/-- Why a code word names no operation (R67, R66). -/
inductive DecodeError where
  /-- Format H 0x00 or 0x03 to 0xFF: refused with `ReservedCommand`; safe. -/
  | reservedCommand
  /-- Format P4 0x0: P_IDLE waits and takes no step; safe. -/
  | waitingPhase
  /-- Format P4 0xA to 0xF: never written to PHASE; safe. -/
  | reservedPhase
  /-- Format U3 0b111: never issued; safe. -/
  | reservedUnit
  deriving DecidableEq, Repr

/-- Format H (R63). -/
def decodeH (c : BitVec 8) : Except DecodeError Instr :=
  match c.toNat with
  | 0x01 => .ok .init
  | 0x02 => .ok .mac
  | _ => .error .reservedCommand

/-- Format P4 (R64). -/
def decodeP4 (c : BitVec 4) : Except DecodeError Instr :=
  match c.toNat with
  | 0x0 => .error .waitingPhase
  | 0x1 => .ok .pKs
  | 0x2 => .ok .pStart
  | 0x3 => .ok .pFull
  | 0x4 => .ok .pPad
  | 0x5 => .ok .pBlank
  | 0x6 => .ok .pMod
  | 0x7 => .ok .pFold
  | 0x8 => .ok .pNonce
  | 0x9 => .ok .pEmit
  | _ => .error .reservedPhase

/-- Format U3 (R65). -/
def decodeU3 (c : BitVec 3) : Except DecodeError Instr :=
  match c.toNat with
  | 0b000 => .ok .wzero
  | 0b001 => .ok .wxor
  | 0b010 => .ok .waesr
  | 0b011 => .ok .wload
  | 0b100 => .ok .wstore
  | 0b101 => .ok .keyexp
  | 0b110 => .ok .aesenc
  | _ => .error .reservedUnit

/-- The operation a code word names. -/
def decode : CodeWord → Except DecodeError Instr
  | .h c => decodeH c
  | .p4 c => decodeP4 c
  | .u3 c => decodeU3 c

/-- The code word of an operation (R63, R64, R65). -/
def encode : Instr → CodeWord
  | .init => .h 0x01#8
  | .mac => .h 0x02#8
  | .pKs => .p4 0x1#4
  | .pStart => .p4 0x2#4
  | .pFull => .p4 0x3#4
  | .pPad => .p4 0x4#4
  | .pBlank => .p4 0x5#4
  | .pMod => .p4 0x6#4
  | .pFold => .p4 0x7#4
  | .pNonce => .p4 0x8#4
  | .pEmit => .p4 0x9#4
  | .wzero => .u3 0b000#3
  | .wxor => .u3 0b001#3
  | .waesr => .u3 0b010#3
  | .wload => .u3 0b011#3
  | .wstore => .u3 0b100#3
  | .keyexp => .u3 0b101#3
  | .aesenc => .u3 0b110#3

/-- The code words a table word of `nbits` bits can stand for, in the order they are tried. A width
of 3, 4 or 8 bits names one code space. A table word padded to a whole byte carries no wire, so with
8 bits the byte-wide space H comes first and the narrower spaces follow (log 14). -/
def tableCandidates (nbits w : Nat) : List CodeWord :=
  match nbits with
  | 3 => if w < 8 then [.u3 (BitVec.ofNat 3 w)] else []
  | 4 => if w < 16 then [.p4 (BitVec.ofNat 4 w)] else []
  | 8 =>
    (if w < 256 then [CodeWord.h (BitVec.ofNat 8 w)] else []) ++
    (if w < 16 then [CodeWord.p4 (BitVec.ofNat 4 w)] else []) ++
    (if w < 8 then [CodeWord.u3 (BitVec.ofNat 3 w)] else [])
  | _ => []

/-- The code word a table word stands for: the first candidate that names an operation. -/
def tableCode (nbits w : Nat) : Option CodeWord :=
  (tableCandidates nbits w).find? CodeWord.wellFormed

/-- What the decoder reads from a table word. -/
def decodeTableWord (nbits w : Nat) : Option Instr :=
  match tableCode nbits w with
  | some c => (decode c).toOption
  | none => none

end Sys2Proof
end

