-- ==== Sys2Proof/Machine/Aes.lean ====
section
/-! DEFINITION. The AES building blocks and standard scalar AES-128 on one `Block128`
(40_block_primitives.md R76 to R80, 41_aes128_scalar.md R86 to R88). The spec marks these passages as
general knowledge (93_implementation_defined.md U1; log 8). -/

namespace Sys2Proof.Machine

/-- The S-box table, one entry per row of R76's table, the column 0 byte first. -/
def sboxRows : List (BitVec 128) :=
  [0x637c777bf26b6fc53001672bfed7ab76, 0xca82c97dfa5947f0add4a2af9ca472c0,
   0xb7fd9326363ff7cc34a5e5f171d83115, 0x04c723c31896059a071280e2eb27b275,
   0x09832c1a1b6e5aa0523bd6b329e32f84, 0x53d100ed20fcb15b6acbbe394a4c58cf,
   0xd0efaafb434d338545f9027f503c9fa8, 0x51a3408f929d38f5bcb6da2110fff3d2,
   0xcd0c13ec5f974417c4a77e3d645d1973, 0x60814fdc222a908846eeb814de5e0bdb,
   0xe0323a0a4906245cc2d3ac629195e479, 0xe7c8376d8dd54ea96c56f4ea657aae08,
   0xba78252e1ca6b4c6e8dd741f4bbd8b8a, 0x703eb5664803f60e613557b986c11d9e,
   0xe1f8981169d98e949b1e87e9ce5528df, 0x8ca1890dbfe6426841992d0fb054bb16]

/-- `SBOX[x]` (R76): the row is the high hexadecimal digit of `x`, the column the low one. -/
def sbox (x : Byte) : Byte :=
  (((sboxRows.getD (x.toNat / 16) 0) >>> (8 * (15 - x.toNat % 16))).setWidth 8)

/-- `mul(2, b)` (R79). -/
def xtime (b : Byte) : Byte :=
  if b.getLsbD 7 then (b <<< 1) ^^^ 0x1b else b <<< 1

/-- `mul(a, b)` (R79): the exclusive or, over every `i` with bit `i` of `a` set, of `mul(2, ...)` applied
`i` times to `b`. `gfMulFrom n a b` does it for the lowest `n` bits of `a`. -/
def gfMulFrom : Nat → Byte → Byte → Byte
  | 0, _, _ => 0
  | n + 1, a, b => (if a.getLsbD 0 then b else 0) ^^^ gfMulFrom n (a >>> 1) (xtime b)

/-- `mul(a, b)` in GF(2^8) (R79). -/
def gfMul (a b : Byte) : Byte := gfMulFrom 8 a b

/-- SubBytes on a column (R76); also SubWord of the key expansion (R86). -/
def subColumn (c : Column) : Column := ⟨sbox c.b0, sbox c.b1, sbox c.b2, sbox c.b3⟩

/-- SubBytes (R76). -/
def subBytes (b : Block128) : Block128 :=
  ⟨subColumn b.c0, subColumn b.c1, subColumn b.c2, subColumn b.c3⟩

/-- ShiftRows (R77): output bytes are input bytes 0, 5, 10, 15, 4, 9, 14, 3, 8, 13, 2, 7, 12, 1, 6, 11. -/
def shiftRows (b : Block128) : Block128 :=
  ⟨⟨b.c0.b0, b.c1.b1, b.c2.b2, b.c3.b3⟩,
   ⟨b.c1.b0, b.c2.b1, b.c3.b2, b.c0.b3⟩,
   ⟨b.c2.b0, b.c3.b1, b.c0.b2, b.c1.b3⟩,
   ⟨b.c3.b0, b.c0.b1, b.c1.b2, b.c2.b3⟩⟩

/-- MixColumns on one column (R78). -/
def mixColumn (a : Column) : Column :=
  ⟨gfMul 2 a.b0 ^^^ gfMul 3 a.b1 ^^^ a.b2 ^^^ a.b3,
   a.b0 ^^^ gfMul 2 a.b1 ^^^ gfMul 3 a.b2 ^^^ a.b3,
   a.b0 ^^^ a.b1 ^^^ gfMul 2 a.b2 ^^^ gfMul 3 a.b3,
   gfMul 3 a.b0 ^^^ a.b1 ^^^ a.b2 ^^^ gfMul 2 a.b3⟩

/-- MixColumns (R78). -/
def mixColumns (b : Block128) : Block128 :=
  ⟨mixColumn b.c0, mixColumn b.c1, mixColumn b.c2, mixColumn b.c3⟩

/-- AddRoundKey (R80). -/
def addRoundKey (s k : Block128) : Block128 := s.xor k

/-- One lane of `aes_round(a, k)` (R75, R153): the full round, the key last. -/
def aesRound1 (a k : Block128) : Block128 :=
  addRoundKey (mixColumns (shiftRows (subBytes a))) k

/-- `aes_last(y, k)` (R88): the last round of standard AES-128, without MixColumns. -/
def aesLast (y k : Block128) : Block128 := addRoundKey (shiftRows (subBytes y)) k

/-- RotWord (R86). -/
def rotWord (c : Column) : Column := ⟨c.b1, c.b2, c.b3, c.b0⟩

/-- `t[0] <- t[0] ^ RCON` (R86). -/
def xorFirst (c : Column) (rcon : Byte) : Column := { c with b0 := c.b0 ^^^ rcon }

/-- Four turns of the loop of R86: from `rk[r]` (words `w[4r]` to `w[4r+3]`) to `rk[r+1]`, with
`RCON[r+1]`. -/
def nextRoundKey (p : Block128) (rcon : Byte) : Block128 :=
  let w0 := p.c0.xor (xorFirst (subColumn (rotWord p.c3)) rcon)
  let w1 := p.c1.xor w0
  let w2 := p.c2.xor w1
  let w3 := p.c3.xor w2
  ⟨w0, w1, w2, w3⟩

/-- KEYEXP: `AES-128-EncryptSchedule(key)` (R86), with `RCON[1]` to `RCON[10]`. -/
def keyExpand (key : Block128) : Sched :=
  let k0 := key
  let k1 := nextRoundKey k0 0x01
  let k2 := nextRoundKey k1 0x02
  let k3 := nextRoundKey k2 0x04
  let k4 := nextRoundKey k3 0x08
  let k5 := nextRoundKey k4 0x10
  let k6 := nextRoundKey k5 0x20
  let k7 := nextRoundKey k6 0x40
  let k8 := nextRoundKey k7 0x80
  let k9 := nextRoundKey k8 0x1b
  let k10 := nextRoundKey k9 0x36
  #v[k0, k1, k2, k3, k4, k5, k6, k7, k8, k9, k10]

/-- AESENC: `AES-128-Encrypt(schedule, block)` (R87). -/
def aesEncrypt (rk : Sched) (p : Block128) : Block128 :=
  let y0 := p.xor rk[0]
  let y1 := aesRound1 y0 rk[1]
  let y2 := aesRound1 y1 rk[2]
  let y3 := aesRound1 y2 rk[3]
  let y4 := aesRound1 y3 rk[4]
  let y5 := aesRound1 y4 rk[5]
  let y6 := aesRound1 y5 rk[6]
  let y7 := aesRound1 y6 rk[7]
  let y8 := aesRound1 y7 rk[8]
  let y9 := aesRound1 y8 rk[9]
  aesLast y9 rk[10]

end Sys2Proof.Machine
end

