-- ==== Sys2Proof/Machine/Lanes.lean ====
section
/-! DEFINITION. The wide operations of the round unit as functions of their operands, each lane
separately (40_block_primitives.md R70 to R75, R81, R82), and the byte order inside a block and a wide
block (20_memory.md R42 to R44, 30_encoding.md R55, R56). -/

namespace Sys2Proof.Machine

/-- The bytes of a column, `b0` first. -/
def columnBytes (c : Column) : List Byte := [c.b0, c.b1, c.b2, c.b3]

/-- Format B (R55): the 16 bytes of a block, byte 0 first. -/
def blockBytes (b : Block128) : List Byte :=
  columnBytes b.c0 ++ (columnBytes b.c1 ++ (columnBytes b.c2 ++ columnBytes b.c3))

/-- Column `c` of the block whose bytes are `buf`: bytes `4·c` to `4·c + 3`. -/
def columnOf (buf : List Byte) (c : Nat) : Column :=
  ⟨buf.getD (4 * c) 0, buf.getD (4 * c + 1) 0, buf.getD (4 * c + 2) 0, buf.getD (4 * c + 3) 0⟩

/-- The block whose bytes are `buf`, a list of 16 bytes (R55, R44). -/
def blockOf (buf : List Byte) : Block128 :=
  ⟨columnOf buf 0, columnOf buf 1, columnOf buf 2, columnOf buf 3⟩

/-- `a[i +: n]` (00_scope.md R16). -/
def slice (a : List Byte) (i n : Nat) : List Byte := (a.drop i).take n

/-- WZERO, `zero()` (R73). -/
def wideZero (d : Degree) : Wide := List.replicate d.lanes Block128.zero

/-- WXOR, `xor(a, b)` (R74). -/
def wideXor (a b : Wide) : Wide := List.zipWith Block128.xor a b

/-- WAESR, `aes_round(a, k)` (R75): the full round on each lane, the key last. -/
def wideAesRound (a k : Wide) : Wide := List.zipWith aesRound1 a k

/-- WLOAD, `from_bytes(buf)` of 16·D bytes (R81): lane `l` is `buf[16·l +: 16]`. -/
def fromBytes (d : Degree) (buf : List Byte) : Wide :=
  (List.range d.lanes).map fun l => blockOf (slice buf (16 * l) 16)

/-- WSTORE, `to_bytes()` (R82): the bytes of the lanes in lane order. -/
def toBytes (w : Wide) : List Byte := w.flatMap blockBytes

end Sys2Proof.Machine
end

