-- ==== Sys2Proof/Machine/State.lean ====
section
/-! DEFINITION. The state of the core as plain data: every register and flag of 10_state.md, the ports
of 45_commands.md R120, the host's coming actions, the round unit's wires, and the state after
reset. -/

namespace Sys2Proof.Machine

/-- A fault stops the machine. The spec has no fault outcome (00_scope.md R21, 60_exceptions.md R137); the
one below is what 93_implementation_defined.md part 2 lets a model do with a code that is never issued. No
operation faults. -/
inductive Fault where
  /-- The reserved unit code 0b111 issued (30_encoding.md R67; 93 part 2: fault): raised by `internalStep`; safe. -/
  | reservedUnitCode
  deriving DecidableEq, Repr

/-- The refusals: the one outcome of a step beside the next state (00_scope.md R21). The first five are the
spec's closed list of answers to the host (60_exceptions.md R140); `memReadOutside`, `padTooLong` and
`operandLength` are no answers: they refuse a step that no run takes. -/
inductive Refusal where
  /-- A command word other than 0x01 and 0x02 (R140): the answer of `hostCommand`; safe. -/
  | reservedCommand
  /-- INIT or MAC presented while PHASE is not P_IDLE (R140): raised by `execInit`, `execMac`; safe. -/
  | busy
  /-- MAC presented with CTX_VALID = 0 (R140): raised by `execMac`; safe. -/
  | noContext
  /-- TAG_OUT read with TAG_VALID = 0 (R140, R126): raised by `readTag`; safe. -/
  | tagNotValid
  /-- Information index 6 or above (R140, R127): raised by `readInfo`; safe. -/
  | noSuchRegister
  /-- `MemRead(a, n)` with `a + n > LEN`, to which a model gives no meaning (20_memory.md R40): raised by
  `execPFull`, `execPPad` outside their entry conditions; no run reaches it; safe. -/
  | memReadOutside
  /-- P_PAD performed with `LEN - POS ≥ SB`, outside its entry condition (43_absorption.md R106), where no
  padded superblock exists (30_encoding.md R60): raised by `execPPad`; no run reaches it; safe. -/
  | padTooLong
  /-- WLOAD on a buffer that is not 16·D bytes, "not a well-formed operand" (40_block_primitives.md R81):
  raised by `execWload`; no rule produces one; safe. -/
  | operandLength
  /-- An instruction without a meaning in this model. No arm of `exec` raises it; safe. -/
  | notModelled (mnemonic : String)
  deriving DecidableEq, Repr

/-- The ten phases (30_encoding.md R64, R67: a closed list). -/
inductive Phase where
  | idle
  | ks
  | start
  | full
  | pad
  | blank
  | mod
  | fold
  | nonce
  | emit
  deriving DecidableEq, Repr

/-- A byte space such as MSG (20_memory.md R38): (offset, byte) pairs, offsets strictly rising. An
unlisted offset holds no byte (log 10). -/
structure Memory where
  cells : List Host.Cell
  deriving DecidableEq, Repr

/-- The context registers, the document's `Context` (10_state.md R23). -/
structure Context where
  /-- `INIT_STATE[0..8]` -/
  initState : Vector Wide 9
  /-- `SUBKEY[0..17]` -/
  subkey : Vector Wide 18
  /-- `NONCE_KEY[0..10]` -/
  nonceKey : Sched
  /-- `FINAL_KEY[0..10]` -/
  finalKey : Sched
  deriving DecidableEq, Repr

/-- The working registers of one MAC (10_state.md R25). -/
structure Working where
  /-- `S[0..8]` -/
  s : Vector Wide 9
  /-- `RR` -/
  rr : Wide
  /-- `R0` -/
  r0 : Wide
  /-- `R1` -/
  r1 : Wide
  /-- `R2` -/
  r2 : Wide
  deriving DecidableEq, Repr

/-- The ports the host drives (45_commands.md R120). The 128-bit ports carry byte i in bits
`8·i + 7` to `8·i` (30_encoding.md R61). -/
structure Ports where
  /-- `CMD` -/
  cmd : BitVec 8
  /-- `KEY_IN` -/
  keyIn : BitVec 128
  /-- `NONCE_IN` -/
  nonceIn : BitVec 128
  /-- `MSG_LEN`, a natural number (R15, 92 D14; log 11) -/
  msgLen : Nat
  /-- `MSG` as the host supplies it -/
  msg : Memory
  deriving DecidableEq, Repr

/-- What the host does in one step (45_commands.md R119, R120). -/
inductive HostAction where
  /-- Nothing: the sequencer steps. -/
  | pass
  /-- Presents the command word `p.cmd` with the operands of `p` (R121). -/
  | command (p : Ports)
  /-- Reads TAG_OUT (R126). -/
  | readTag
  /-- Reads the information port (R127). -/
  | readInfo (index : Nat)
  /-- Asserts reset (70_reset_and_hazards.md R148). -/
  | reset
  deriving DecidableEq, Repr

/-- What the host gets back from an action. MODEL's own: the spec does not say how the core signals it
(60_exceptions.md R140; log 6). -/
inductive Answer where
  | accepted
  | refused (r : Refusal)
  | tag (v : BitVec 128)
  | info (v : BitVec 32)
  | resetDone
  deriving DecidableEq, Repr

/-- The round unit's wires: MODEL's own, to let a unit operation run as a step (log 7). The unit holds no state
of its own (40_block_primitives.md R70): an operation is a function of the operand wires to a result
wire. -/
structure UnitPort where
  /-- The select wires (format U3) when an operation is issued. -/
  sel : Option (BitVec 3)
  /-- First wide operand: WXOR, WAESR, WSTORE. -/
  a : Wide
  /-- Second wide operand: WXOR, WAESR (the round key). -/
  b : Wide
  /-- Byte operand of WLOAD, 16·D bytes. -/
  buf : List Byte
  /-- Block operand: the key of KEYEXP, the plaintext of AESENC. -/
  blk : Block128
  /-- Schedule operand of AESENC. -/
  sched : Sched
  /-- Result of WZERO, WXOR, WAESR, WLOAD. -/
  outWide : Wide
  /-- Result of WSTORE. -/
  outBuf : List Byte
  /-- Result of KEYEXP. -/
  outSched : Sched
  /-- Result of AESENC. -/
  outBlk : Block128
  deriving DecidableEq, Repr

/-- The whole state. -/
structure State where
  /-- D: a parameter of the machine (R11, R36), carried here; no step changes it (log 1). -/
  degree : Degree
  /-- `INIT_STATE`, `SUBKEY`, `NONCE_KEY`, `FINAL_KEY` (R23) -/
  ctx : Context
  /-- `S`, `RR`, `R0`, `R1`, `R2` (R25) -/
  work : Working
  /-- `T` (R26) -/
  t : Wide
  /-- `T128` (R26) -/
  t128 : Block128
  /-- `N_ENC` (R26) -/
  nEnc : Block128
  /-- `E_K` (R27) -/
  eK : Sched
  /-- `K` (R28) -/
  k : Block128
  /-- `NONCE` (R28) -/
  nonce : Block128
  /-- `LEN` (R28) -/
  len : Nat
  /-- `TAG_OUT` (R28) -/
  tagOut : Block128
  /-- `PHASE` (R30) -/
  phase : Phase
  /-- `POS` (R30) -/
  pos : Nat
  /-- `CNT`, 0 to 3 (R30) -/
  cnt : Fin 4
  /-- `IDX`, 0 to 8 (R30) -/
  idx : Fin 9
  /-- `CTX_VALID` (R31) -/
  ctxValid : Bool
  /-- `TAG_VALID` (R31) -/
  tagValid : Bool
  /-- `MSG` as captured when MAC was accepted (R50) -/
  msg : Memory
  /-- The ports as last driven (R120) -/
  ports : Ports
  /-- The host's coming actions, next first. MODEL's own (log 5). -/
  host : List HostAction
  /-- What the host's last action got. MODEL's own (log 6). -/
  answer : Option Answer
  /-- The round unit's wires. MODEL's own (log 7). -/
  unit : UnitPort
  /-- How many times registers have ceased to hold a value: the index of the next free values.
  MODEL's own (log 3). -/
  freeDraws : Nat
  deriving DecidableEq, Repr

/-- The schedule of eleven zero blocks. -/
def zeroSched : Sched := Vector.replicate 11 Block128.zero

/-- The state after reset of a core of degree `d` (10_state.md R37, 70_reset_and_hazards.md R148): PHASE =
P_IDLE, CTX_VALID = TAG_VALID = 0. The spec states no value for any other register; the zeros are DESIGN CHOICE
(log 2). -/
def State.resetFor (d : Degree) : State :=
  let z : Wide := List.replicate d.lanes Block128.zero
  { degree := d
    ctx :=
      { initState := Vector.replicate 9 z
        subkey := Vector.replicate 18 z
        nonceKey := zeroSched
        finalKey := zeroSched }
    work := { s := Vector.replicate 9 z, rr := z, r0 := z, r1 := z, r2 := z }
    t := z
    t128 := .zero
    nEnc := .zero
    eK := zeroSched
    k := .zero
    nonce := .zero
    len := 0
    tagOut := .zero
    phase := .idle
    pos := 0
    cnt := 0
    idx := 0
    ctxValid := false
    tagValid := false
    msg := ⟨[]⟩
    ports := { cmd := 0, keyIn := 0, nonceIn := 0, msgLen := 0, msg := ⟨[]⟩ }
    host := []
    answer := none
    unit :=
      { sel := none, a := z, b := z, buf := List.replicate d.wideBytes 0, blk := .zero,
        sched := zeroSched, outWide := z, outBuf := List.replicate d.wideBytes 0,
        outSched := zeroSched, outBlk := .zero }
    freeDraws := 0 }

/-- The state after reset: D = 1 (DESIGN CHOICE, log 1); `State.resetFor` gives the other variants. -/
def State.reset : State := State.resetFor .x1

end Sys2Proof.Machine
end

