-- ==== Sys2Proof/Machine/Operands.lean ====
section
/-! DEFINITION. The operand formats: the 128-bit ports (30_encoding.md R61), the key-schedule inputs
(formats K and A, R58, R59), PACK (42_key_schedule.md R92), SPLIT (43_absorption.md R103), the padded
superblock (format P, R60), and the codes of the phases (R64). -/

namespace Sys2Proof.Machine

/-- The block on a 128-bit port: byte `i` is bits `8·i + 7` to `8·i` (R61). -/
def blockOfPort (v : BitVec 128) : Block128 :=
  blockOf ((List.range 16).map fun i => (v >>> (8 * i)).setWidth 8)

/-- The number whose little-endian bytes are `bytes`: byte `i` weighs `256^i` (R61, R19). -/
def bytesToNat : List Byte → Nat
  | [] => 0
  | b :: rest => b.toNat + 256 * bytesToNat rest

/-- A block on a 128-bit port (R61). -/
def portOfBlock (b : Block128) : BitVec 128 := BitVec.ofNat 128 (bytesToNat (blockBytes b))

/-- The `n` little-endian bytes of a number: byte `j` is `floor(x / 256^j) mod 256` (00_scope.md R19). -/
def leBytes : Nat → Nat → List Byte
  | 0, _ => []
  | n + 1, x => BitVec.ofNat 8 x :: leBytes n (x / 256)

/-- `le64` (R19). -/
def le64 (x : Nat) : List Byte := leBytes 8 x

/-- `le128` (R19). -/
def le128 (x : Nat) : Block128 := blockOf (leBytes 16 x)

/-- `KSIN(pos, lane)`, format K (R58, R91): `le64(pos)`, six zero bytes, the lane, D - 1. -/
def ksin (d : Degree) (pos lane : Nat) : Block128 :=
  blockOf (le64 pos ++ List.replicate 6 0 ++ [BitVec.ofNat 8 lane, BitVec.ofNat 8 (d.lanes - 1)])

/-- `PACK(c[0], ..., c[D-1])` (R92): `from_bytes` of the concatenation, so lane `l` is `c[l]`. -/
def pack (d : Degree) (c : List Block128) : Wide := fromBytes d (c.flatMap blockBytes)

/-- Wide block `Mj` of a superblock `buf` (R57, R103): `from_bytes(buf[16·D·j +: 16·D])`. -/
def splitBlock (d : Degree) (buf : List Byte) (j : Nat) : Wide :=
  fromBytes d (slice buf (d.wideBytes * j) d.wideBytes)

/-- The padded superblock, format P (R60, R106): the remaining bytes, 0x01, zeros up to SB bytes. -/
def padBuffer (d : Degree) (rest : List Byte) : List Byte :=
  rest ++ [Config.padByte] ++ List.replicate (d.superBytes - rest.length - 1) 0

/-- The code of a phase (R64). -/
def phaseCode : Phase → BitVec 4
  | .idle => 0x0
  | .ks => 0x1
  | .start => 0x2
  | .full => 0x3
  | .pad => 0x4
  | .blank => 0x5
  | .mod => 0x6
  | .fold => 0x7
  | .nonce => 0x8
  | .emit => 0x9

/-- The phase of a code; 0xA to 0xF are no phase (R64, R67). -/
def phaseOfCode (c : BitVec 4) : Option Phase :=
  match c.toNat with
  | 0x0 => some .idle
  | 0x1 => some .ks
  | 0x2 => some .start
  | 0x3 => some .full
  | 0x4 => some .pad
  | 0x5 => some .blank
  | 0x6 => some .mod
  | 0x7 => some .fold
  | 0x8 => some .nonce
  | 0x9 => some .emit
  | _ => none

end Sys2Proof.Machine
end

