-- ==== Sys2Proof/Machine/Flags.lean ====
section
/-! DEFINITION. The status flags, the information bank and the two reads (10_state.md R31 to R33,
45_commands.md R126, R127). There are no condition codes and no flag that depends on data (R32). -/

namespace Sys2Proof.Machine

/-- `BUSY`: 1 exactly when PHASE is not P_IDLE (R31). -/
def busy (s : State) : Bool := s.phase != .idle

/-- A flag as the number of its bit. -/
def bit (b : Bool) : Nat := if b then 1 else 0

/-- `STATUS` (R33): bit 0 CTX_VALID, bit 1 BUSY, bit 2 TAG_VALID, bits 31 to 3 zero. -/
def statusWord (s : State) : BitVec 32 :=
  BitVec.ofNat 32 (bit s.ctxValid + 2 * bit (busy s) + 4 * bit s.tagValid)

/-- A read of the information port (R33, R127): index 0 to 5, in any phase; index 6 or above is
refused. -/
def readInfo (s : State) (index : Nat) : Except Refusal (BitVec 32) :=
  match index with
  | 0 => .ok (BitVec.ofNat 32 Config.keySize)
  | 1 => .ok (BitVec.ofNat 32 Config.nonceSize)
  | 2 => .ok (BitVec.ofNat 32 Config.tagSize)
  | 3 => .ok (BitVec.ofNat 32 s.degree.lanes)
  | 4 => .ok (BitVec.ofNat 32 s.degree.superBytes)
  | 5 => .ok (statusWord s)
  | _ => .error .noSuchRegister

/-- A read of TAG_OUT (R126): refused while TAG_VALID = 0. -/
def readTag (s : State) : Except Refusal (BitVec 128) :=
  if s.tagValid then .ok (portOfBlock s.tagOut) else .error .tagNotValid

end Sys2Proof.Machine
end

