-- ==== Sys2Proof/Machine/Ops.lean ====
section
/-! DEFINITION. The named operations over memory and registers: the message space (20_memory.md R38 to
R40, R50), registers that cease to hold a value (10_state.md R35), and reset (70_reset_and_hazards.md
R148). The core takes no exception and returns from none: there is no trap mechanism
(60_exceptions.md R137, R143), so this file holds no exception entry. -/

namespace Sys2Proof.Machine

/-! ### The message space -/

/-- The byte at an offset of a cell list, if the list has one. -/
def readCells : List Host.Cell → Nat → Option Byte
  | [], _ => none
  | (x, v) :: rest, a => if x = a then some v else readCells rest a

/-- Puts a byte at an offset of a cell list, keeping the offsets rising. -/
def writeCells : List Host.Cell → Nat → Byte → List Host.Cell
  | [], a, b => [(a, b)]
  | (x, v) :: rest, a, b =>
    if a < x then (a, b) :: (x, v) :: rest
    else if a = x then (a, b) :: rest
    else (x, v) :: writeCells rest a b

/-- The byte a memory holds at an offset; none at an unlisted one (log 10). -/
def Memory.read (m : Memory) (a : Nat) : Option Byte := readCells m.cells a

/-- The memory with a byte put at an offset. The core never writes (R41): this builds the space that
the host presents and the space the core captures. -/
def Memory.write (m : Memory) (a : Nat) (b : Byte) : Memory := ⟨writeCells m.cells a b⟩

/-- The canonical form: offsets strictly rising. An unlisted offset holds no byte, so no entry can
equal what it reads as. -/
def Memory.wf (m : Memory) : Bool :=
  decide ((m.cells.map Prod.fst).Pairwise (· < ·))

/-- The memory holding `bytes` from offset `a` on, over `m`. -/
def Memory.load (m : Memory) : Nat → List Byte → Memory
  | _, [] => m
  | a, b :: rest => (m.write a b).load (a + 1) rest

/-- The message space of a byte list: offset 0 is the first byte (R38). -/
def Memory.ofBytes (bytes : List Byte) : Memory := (⟨[]⟩ : Memory).load 0 bytes

/-- The `len` bytes captured when MAC is accepted (R50): the byte the host supplied at each offset below
`len`, and a free value where it supplied none (93 part 2; log 10). -/
def Memory.capture (m : Memory) (len draw : Nat) : Memory :=
  Memory.ofBytes ((List.range len).map fun a => (m.read a).getD (Config.freeByte draw a))

/-- `n` bytes of a memory from offset `a` on, if it holds them all. -/
def Memory.readBytes (m : Memory) : Nat → Nat → Option (List Byte)
  | _, 0 => some []
  | a, n + 1 =>
    match m.read a, m.readBytes (a + 1) n with
    | some b, some rest => some (b :: rest)
    | _, _ => none

/-- `MemRead(a, n)` (R40): the bytes at offsets `a` to `a + n - 1` of the captured message; no meaning
(none) when `a + n > LEN`. -/
def memRead (s : State) (a n : Nat) : Option (List Byte) :=
  if a + n ≤ s.len then s.msg.readBytes a n else none

/-! ### Registers that hold no value

Each register has a number that tells its free values apart: 0 to 8 INIT_STATE, 9 to 26 SUBKEY, 27 to 35
S, 36 RR, 37 R0, 38 R1, 39 R2, 40 T, 41 T128, 42 N_ENC, 43 K, 44 NONCE, 45 TAG_OUT, 46 NONCE_KEY,
47 FINAL_KEY, 48 E_K, 49 LEN, 50 POS, 51 CNT, 52 IDX. -/

/-- The free content of a `Block128` register (R35, log 3). -/
def freeBlock (s : State) (register : Nat) : Block128 := Config.freeBlock s.freeDraws register 0

/-- The free content of a `Wide` register: D free lanes (R35, log 3). -/
def freeWide (s : State) (register : Nat) : Wide :=
  (List.range s.degree.lanes).map fun l => Config.freeBlock s.freeDraws register l

/-- The free content of a `Sched` register (R35, log 3). -/
def freeSched (s : State) (register : Nat) : Sched :=
  Vector.ofFn fun r => Config.freeBlock s.freeDraws register r.val

/-- The free content of a natural-number register (R35, log 3). -/
def freeNat (s : State) (register : Nat) : Nat := Config.freeNat s.freeDraws register

/-- The context registers holding no value (R24, R37). -/
def freeContext (s : State) : Context :=
  { initState := Vector.ofFn fun i => freeWide s i.val
    subkey := Vector.ofFn fun i => freeWide s (9 + i.val)
    nonceKey := freeSched s 46
    finalKey := freeSched s 47 }

/-- The working registers holding no value (R25, R37). -/
def freeWorking (s : State) : Working :=
  { s := Vector.ofFn fun i => freeWide s (27 + i.val)
    rr := freeWide s 36
    r0 := freeWide s 37
    r1 := freeWide s 38
    r2 := freeWide s 39 }

/-! ### Reset -/

/-- Reset as a host action (R148): PHASE = P_IDLE, CTX_VALID = TAG_VALID = 0, every other register holds
no value. The degree is no register; an operation issued to the round unit is abandoned (R149). -/
def hostReset (s : State) : State :=
  { s with
    phase := .idle
    ctxValid := false
    tagValid := false
    ctx := freeContext s
    work := freeWorking s
    t := freeWide s 40
    t128 := freeBlock s 41
    nEnc := freeBlock s 42
    k := freeBlock s 43
    nonce := freeBlock s 44
    tagOut := freeBlock s 45
    eK := freeSched s 48
    len := freeNat s 49
    pos := freeNat s 50
    cnt := Fin.ofNat 4 (freeNat s 51)
    idx := Fin.ofNat 9 (freeNat s 52)
    msg := ⟨[]⟩
    unit := { s.unit with sel := none }
    freeDraws := s.freeDraws + 1 }

end Sys2Proof.Machine
end

