-- ==== Sys2Proof/Machine/Absorption.lean ====
section
/-! DEFINITION. Message absorption: ROUND and the phases P_START, P_FULL, P_PAD, P_BLANK
(43_absorption.md). -/

namespace Sys2Proof.Machine

/-- `ROUND(M0, M1, M2, M3)` (R100, R102, R151, R152): thirteen assignments at once, every right-hand side
reading the registers before the round. -/
def roundStep (w : Working) (m0 m1 m2 m3 : Wide) : Working :=
  { s := #v[
      wideXor (wideXor w.s[0] w.s[8]) m2,
      wideAesRound w.s[0] m3,
      wideAesRound w.s[1] m3,
      wideAesRound w.s[2] (wideXor w.r1 w.r2),
      wideAesRound w.s[3] m0,
      wideAesRound w.s[4] m0,
      wideAesRound w.s[5] m1,
      wideAesRound w.s[6] m1,
      wideAesRound w.s[7] m3]
    r2 := w.r1
    r1 := w.r0
    r0 := wideXor w.rr m1
    rr := m2 }

/-- `ROUND(SPLIT(buf))` (R103): the round on a superblock of SB bytes. -/
def roundOn (d : Degree) (w : Working) (buf : List Byte) : Working :=
  roundStep w (splitBlock d buf 0) (splitBlock d buf 1) (splitBlock d buf 2) (splitBlock d buf 3)

/-- A blank round (R107): `ROUND(zero(), zero(), zero(), zero())`. -/
def roundBlank (d : Degree) (w : Working) : Working :=
  roundStep w (wideZero d) (wideZero d) (wideZero d) (wideZero d)

/-- The working registers at the start of a MAC (R104): `S` from `INIT_STATE`, the rolling register
zero. -/
def workingStart (d : Degree) (initState : Vector Wide 9) : Working :=
  { s := initState, rr := wideZero d, r0 := wideZero d, r1 := wideZero d, r2 := wideZero d }

/-- The phase that absorbs next (R104, R105): P_FULL while `LEN - POS ≥ SB`, then P_PAD. -/
def absorbPhase (d : Degree) (len pos : Nat) : Phase :=
  if len - pos ≥ d.superBytes then .full else .pad

/-- P_START (R104). -/
def execPStart (s : State) : Host.Outcome State Fault Refusal :=
  .next
    { s with
      work := workingStart s.degree s.ctx.initState
      pos := 0
      phase := absorbPhase s.degree s.len 0 }

/-- P_FULL (R105): absorbs the next SB bytes. Outside its entry condition `LEN - POS ≥ SB` the read has no
meaning (20_memory.md R40; log 12). -/
def execPFull (s : State) : Host.Outcome State Fault Refusal :=
  match memRead s s.pos s.degree.superBytes with
  | none => .refused .memReadOutside
  | some buf => .next
      { s with
        work := roundOn s.degree s.work buf
        pos := s.pos + s.degree.superBytes
        phase := absorbPhase s.degree s.len (s.pos + s.degree.superBytes) }

/-- P_PAD (R106): absorbs the remaining `r = LEN - POS` bytes padded with 0x01 and zeros. Outside its
entry condition (`r ≥ SB`, or POS beyond LEN) there is no padded superblock or no read (log 12). -/
def execPPad (s : State) : Host.Outcome State Fault Refusal :=
  match memRead s s.pos (s.len - s.pos) with
  | none => .refused .memReadOutside
  | some rest =>
    if s.len - s.pos < s.degree.superBytes then .next
      { s with
        work := roundOn s.degree s.work (padBuffer s.degree rest)
        cnt := 0
        phase := .blank }
    else .refused .padTooLong

/-- P_BLANK (R107): one of the four blank rounds. -/
def execPBlank (s : State) : Host.Outcome State Fault Refusal :=
  if s.cnt = 3 then .next
    { s with work := roundBlank s.degree s.work, idx := 0, phase := .mod }
  else .next
    { s with work := roundBlank s.degree s.work, cnt := s.cnt + 1, phase := .blank }

end Sys2Proof.Machine
end

