-- ==== Sys2Proof/Machine/Commands.lean ====
section
/-! DEFINITION. The host commands INIT and MAC (45_commands.md R121 to R123). -/

namespace Sys2Proof.Machine

/-- INIT (R122). Accepted in P_IDLE, else refused `Busy` (R121). At acceptance the old context is gone
(R24, 92 D18) and TAG_OUT holds no value (R126). -/
def execInit (s : State) : Host.Outcome State Fault Refusal :=
  if busy s then .refused .busy
  else .next
    { s with
      k := blockOfPort s.ports.keyIn
      ctxValid := false
      tagValid := false
      phase := .ks
      ctx := freeContext s
      tagOut := freeBlock s 45
      freeDraws := s.freeDraws + 1 }

/-- MAC (R123). Refused `Busy` when PHASE is not P_IDLE, then `NoContext` when CTX_VALID = 0 (R121).
At acceptance the message is captured (20_memory.md R50) and TAG_OUT holds no value (R126). -/
def execMac (s : State) : Host.Outcome State Fault Refusal :=
  if busy s then .refused .busy
  else if s.ctxValid = false then .refused .noContext
  else .next
    { s with
      nonce := blockOfPort s.ports.nonceIn
      len := s.ports.msgLen
      msg := s.ports.msg.capture s.ports.msgLen s.freeDraws
      tagValid := false
      phase := .start
      tagOut := freeBlock s 45
      freeDraws := s.freeDraws + 1 }

end Sys2Proof.Machine
end

