-- ==== Sys2Proof/Machine/Finalization.lean ====
section
/-! DEFINITION. Finalization: AESMOD and the phases P_MOD, P_FOLD, P_NONCE, P_EMIT
(44_finalization.md). -/

namespace Sys2Proof.Machine

/-- The nine keyed rounds of the modified AES (R111): `aes_round` with `SUBKEY[i + 1]` to
`SUBKEY[i + 9]`. -/
def keyedRounds (subkey : Vector Wide 18) (i : Fin 9) (y : Wide) : Wide :=
  (List.finRange 9).foldl (fun y j => wideAesRound y subkey[i.val + (j.val + 1)]) y

/-- `AESMOD(i, x)` (R111, R112, R154): XOR with `SUBKEY[i]`, nine keyed full rounds, one full round with
the zero key. -/
def aesMod (d : Degree) (subkey : Vector Wide 18) (i : Fin 9) (x : Wide) : Wide :=
  wideAesRound (keyedRounds subkey i (wideXor x subkey[i.val])) (wideZero d)

/-- The XOR-fold of the lanes of T (R114): serialize, then XOR the 16-byte pieces. -/
def foldLanes (d : Degree) (t : Wide) : Block128 :=
  let b := toBytes t
  (List.range (d.lanes - 1)).foldl
    (fun acc l => acc.xor (blockOf (slice b (16 * (l + 1)) 16))) (blockOf (slice b 0 16))

/-- `T128 ^ NONCE ^ N_ENC` (R115). -/
def mixNonce (t128 nonce nEnc : Block128) : Block128 := (t128.xor nonce).xor nEnc

/-- P_MOD (R113): folds state block `S[IDX]` into T. -/
def execPMod (s : State) : Host.Outcome State Fault Refusal :=
  let m := aesMod s.degree s.ctx.subkey s.idx s.work.s[s.idx.val]
  let t' := if s.idx = 0 then m else wideXor s.t m
  if s.idx = 8 then .next { s with t := t', phase := .fold }
  else .next { s with t := t', idx := s.idx + 1, phase := .mod }

/-- P_FOLD (R114). -/
def execPFold (s : State) : Host.Outcome State Fault Refusal :=
  .next { s with t128 := foldLanes s.degree s.t, phase := .nonce }

/-- P_NONCE (R115): the nonce enters twice, in clear and encrypted. -/
def execPNonce (s : State) : Host.Outcome State Fault Refusal :=
  .next
    { s with
      nEnc := aesEncrypt s.ctx.nonceKey s.nonce
      t128 := mixNonce s.t128 s.nonce (aesEncrypt s.ctx.nonceKey s.nonce)
      phase := .emit }

/-- P_EMIT (R116): the tag; NONCE, LEN, the working registers, T, T128 and N_ENC hold no value
afterwards. -/
def execPEmit (s : State) : Host.Outcome State Fault Refusal :=
  .next
    { s with
      tagOut := aesEncrypt s.ctx.finalKey s.t128
      tagValid := true
      phase := .idle
      nonce := freeBlock s 44
      len := freeNat s 49
      work := freeWorking s
      t := freeWide s 40
      t128 := freeBlock s 41
      nEnc := freeBlock s 42
      freeDraws := s.freeDraws + 1 }

end Sys2Proof.Machine
end

