-- ==== Sys2Proof/Machine/KeySchedule.lean ====
section
/-! DEFINITION. The key schedule and context builder, phase P_KS (42_key_schedule.md). -/

namespace Sys2Proof.Machine

/-- The wide block of a position from 0 to 26 (R93, R94): the encryptions under `E_K` of `KSIN(pos, l)`,
one per lane, packed in lane order. -/
def contextBlock (d : Degree) (eK : Sched) (pos : Nat) : Wide :=
  pack d ((List.range d.lanes).map fun l => aesEncrypt eK (ksin d pos l))

/-- `init_D(k)` (R89 to R97, R128): the context of a key. -/
def contextOf (d : Degree) (key : Block128) : Context :=
  let eK := keyExpand key
  { initState := Vector.ofFn fun i => contextBlock d eK i.val
    subkey := Vector.ofFn fun i => contextBlock d eK (i.val + 9)
    nonceKey := keyExpand (aesEncrypt eK (le128 27))
    finalKey := keyExpand (aesEncrypt eK (le128 28)) }

/-- P_KS (R97): one step performs the whole key schedule; `K` and `E_K` hold no value afterwards. -/
def execPKs (s : State) : Host.Outcome State Fault Refusal :=
  .next
    { s with
      ctx := contextOf s.degree s.k
      ctxValid := true
      phase := .idle
      k := freeBlock s 43
      eK := freeSched s 48
      freeDraws := s.freeDraws + 1 }

end Sys2Proof.Machine
end

