-- ==== Sys2Proof/Machine/RoundUnit.lean ====
section
/-! DEFINITION. The seven operations of the round unit as steps: each puts the function of its operand
wires on its result wire and touches nothing else (40_block_primitives.md R70, R72;
41_aes128_scalar.md R85; log 7). -/

namespace Sys2Proof.Machine

/-- WZERO (R73). -/
def execWzero (s : State) : Host.Outcome State Fault Refusal :=
  .next { s with unit := { s.unit with outWide := wideZero s.degree } }

/-- WXOR (R74). -/
def execWxor (s : State) : Host.Outcome State Fault Refusal :=
  .next { s with unit := { s.unit with outWide := wideXor s.unit.a s.unit.b } }

/-- WAESR (R75). -/
def execWaesr (s : State) : Host.Outcome State Fault Refusal :=
  .next { s with unit := { s.unit with outWide := wideAesRound s.unit.a s.unit.b } }

/-- WLOAD (R81). A buffer that is not 16·D bytes is no well-formed operand: refused (log 16). -/
def execWload (s : State) : Host.Outcome State Fault Refusal :=
  if bufferWellFormed s.degree s.unit.buf then
    .next { s with unit := { s.unit with outWide := fromBytes s.degree s.unit.buf } }
  else .refused .operandLength

/-- WSTORE (R82). -/
def execWstore (s : State) : Host.Outcome State Fault Refusal :=
  .next { s with unit := { s.unit with outBuf := toBytes s.unit.a } }

/-- KEYEXP (R86). -/
def execKeyexp (s : State) : Host.Outcome State Fault Refusal :=
  .next { s with unit := { s.unit with outSched := keyExpand s.unit.blk } }

/-- AESENC (R87). -/
def execAesenc (s : State) : Host.Outcome State Fault Refusal :=
  .next { s with unit := { s.unit with outBlk := aesEncrypt s.unit.sched s.unit.blk } }

end Sys2Proof.Machine
end

