-- ==== Sys2Proof/Machine/Dispatch.lean ====
section
/-! DEFINITION. The meaning of every operation: one arm per constructor of `Instr`. -/

namespace Sys2Proof.Machine

def exec (i : Instr) (s : State) : Host.Outcome State Fault Refusal :=
  match i with
  | .init => Sys2Proof.Machine.execInit s
  | .mac => Sys2Proof.Machine.execMac s
  | .pKs => Sys2Proof.Machine.execPKs s
  | .pStart => Sys2Proof.Machine.execPStart s
  | .pFull => Sys2Proof.Machine.execPFull s
  | .pPad => Sys2Proof.Machine.execPPad s
  | .pBlank => Sys2Proof.Machine.execPBlank s
  | .pMod => Sys2Proof.Machine.execPMod s
  | .pFold => Sys2Proof.Machine.execPFold s
  | .pNonce => Sys2Proof.Machine.execPNonce s
  | .pEmit => Sys2Proof.Machine.execPEmit s
  | .wzero => Sys2Proof.Machine.execWzero s
  | .wxor => Sys2Proof.Machine.execWxor s
  | .waesr => Sys2Proof.Machine.execWaesr s
  | .wload => Sys2Proof.Machine.execWload s
  | .wstore => Sys2Proof.Machine.execWstore s
  | .keyexp => Sys2Proof.Machine.execKeyexp s
  | .aesenc => Sys2Proof.Machine.execAesenc s

end Sys2Proof.Machine
end

