-- ==== Sys2Proof/Machine/Turns.lean ====
section
/-! DEFINITION. Where an operation comes from: the three wires (30_encoding.md R66), the host's actions
(45_commands.md R119 to R127), and the placing of a code word on its wire. -/

namespace Sys2Proof.Machine

/-- A step of the core on its own: an operation issued on the unit's select wires (R65), else the step
of the current phase (R64, R124). In P_IDLE the sequencer takes no step (R121). The code 0b111 is never
issued (R67; log 13). -/
def internalStep (s : State) : Host.Outcome State Fault Refusal :=
  match s.unit.sel with
  | some c =>
    match decodeU3 c with
    | .ok i => exec i { s with unit := { s.unit with sel := none } }
    | .error _ => .fault .reservedUnitCode
  | none =>
    match decodeP4 (phaseCode s.phase) with
    | .ok i => exec i s
    | .error _ => .next s

/-- What the host gets, when its action has no effect on the core. -/
def answered (s : State) (a : Answer) : State := { s with answer := some a }

/-- A command that is refused changes nothing and the core goes on (60_exceptions.md R140, R143): the
outcome of the command becomes an answer to the host (log 6). -/
def settle (s : State) : Host.Outcome State Fault Refusal → Host.Outcome State Fault Refusal
  | .next t => .next t
  | .fault f => .fault f
  | .refused r => .next (answered s (.refused r))

/-- The host presents a command word with its operands (R121): `ReservedCommand` is checked first, the
command's own checks follow. -/
def hostCommand (s : State) (p : Ports) : Host.Outcome State Fault Refusal :=
  match decodeH p.cmd with
  | .error _ => .next (answered s (.refused .reservedCommand))
  | .ok i => settle s (exec i { s with ports := p, answer := some .accepted })

/-- The answer to a read (R126, R127). -/
def readAnswer {α : Type} (wrap : α → Answer) : Except Refusal α → Answer
  | .ok v => wrap v
  | .error r => .refused r

/-- One host action, the action already taken off the list. A read changes no state of the core (R126,
R127); reset is taken in every phase and wins over everything (R148, R142). -/
def hostStep (s : State) : HostAction → Host.Outcome State Fault Refusal
  | .pass => internalStep s
  | .command p => hostCommand s p
  | .readTag => .next (answered s (readAnswer .tag (readTag s)))
  | .readInfo index => .next (answered s (readAnswer .info (readInfo s index)))
  | .reset => .next (answered (hostReset s) .resetDone)

/-- One step of the machine: the host's next action, or, with none to come, a step of the core. -/
def turn (s : State) : Host.Outcome State Fault Refusal :=
  match s.host with
  | [] => internalStep s
  | action :: rest => hostStep { s with host := rest } action

/-- The state with a code word put on its wire so that the next step runs it: a command word in the
host's hands, before its other actions, with the operands now on the ports; a phase code in PHASE; a unit code on the select
wires. A phase code that is no phase leaves PHASE. -/
def placeCode (s : State) : CodeWord → State
  | .h c => { s with host := .command { s.ports with cmd := c } :: s.host }
  | .p4 c =>
    { s with
      host := .pass :: s.host
      unit := { s.unit with sel := none }
      phase := (phaseOfCode c).getD s.phase }
  | .u3 c => { s with host := .pass :: s.host, unit := { s.unit with sel := some c } }

end Sys2Proof.Machine
end

