-- ==== Sys2Proof/Machine/Step.lean ====
section
/-! DEFINITION. One step of the machine (45_commands.md R119, R124), and where a table word is placed so
that the next step runs it. -/

namespace Sys2Proof.Machine

/-- One step: the host's next action, or a step of the sequencer or of the round unit. -/
def step (s : State) : Host.Outcome State Fault Refusal := turn s

/-- `s` with the operation of a table word placed where the next step takes it (log 14). A table word that
names no operation leaves `s`. -/
def State.withFetchWord (s : State) (nbits w : Nat) : State :=
  match tableCode nbits w with
  | some c => placeCode s c
  | none => s

end Sys2Proof.Machine
end

