-- ==== Sys2Proof/Machine/Reference.lean ====
section
/-! DEFINITION. The function level: ABSORB, FINALIZE and `mac_D` on whole values, in the terms of which
45_commands.md R128 states what the sequencer must compute (43_absorption.md R108, 44_finalization.md
R117; `init_D` is `contextOf`). -/

namespace Sys2Proof.Machine

/-- The superblocks absorbed for a message (R105, R106, R108): the `floor(L / SB)` full ones in order, then the
padded one. -/
def superblocks (d : Degree) (msg : List Byte) : List (List Byte) :=
  let n := msg.length / d.superBytes
  (List.range n).map (fun q => slice msg (q * d.superBytes) d.superBytes) ++
    [padBuffer d (msg.drop (n * d.superBytes))]

/-- `ABSORB(INIT_STATE, msg)` (R108): the state blocks after one round per superblock and four blank
rounds. -/
def absorb (d : Degree) (initState : Vector Wide 9) (msg : List Byte) : Vector Wide 9 :=
  let w := (superblocks d msg).foldl (roundOn d) (workingStart d initState)
  (roundBlank d (roundBlank d (roundBlank d (roundBlank d w)))).s

/-- The nine-term sum of the finalization (R113, R117). -/
def modSum (d : Degree) (subkey : Vector Wide 18) (s : Vector Wide 9) : Wide :=
  ((List.finRange 9).tail).foldl
    (fun t i => wideXor t (aesMod d subkey i s[i.val])) (aesMod d subkey 0 s[0])

/-- `FINALIZE(ctx, S, nonce)` (R117). -/
def finalize (d : Degree) (ctx : Context) (s : Vector Wide 9) (nonce : Block128) : Block128 :=
  aesEncrypt ctx.finalKey
    (mixNonce (foldLanes d (modSum d ctx.subkey s)) nonce (aesEncrypt ctx.nonceKey nonce))

/-- `mac_D(ctx, m, n)` (R128). -/
def macOf (d : Degree) (ctx : Context) (msg : List Byte) (nonce : Block128) : Block128 :=
  finalize d ctx (absorb d ctx.initState msg) nonce

end Sys2Proof.Machine
end

