-- ==== Sys2Proof/Safety.lean ====
section
/-! DEFINITION. What a state that the core can be in satisfies, and the terms claims are stated in: the shape of
the wide registers, the sequencer's entry conditions, runs of host actions. -/

namespace Sys2Proof.Safety

open Sys2Proof.Machine

/-- Every wide context register has D lanes (10_state.md R22). -/
structure ContextShaped (d : Degree) (c : Context) : Prop where
  initState : ∀ i : Fin 9, WideShaped d c.initState[i.val]
  subkey : ∀ i : Fin 18, WideShaped d c.subkey[i.val]

/-- Every working register has D lanes (10_state.md R22). -/
structure WorkingShaped (d : Degree) (w : Working) : Prop where
  blocks : ∀ i : Fin 9, WideShaped d w.s[i.val]
  rr : WideShaped d w.rr
  r0 : WideShaped d w.r0
  r1 : WideShaped d w.r1
  r2 : WideShaped d w.r2

/-- The round unit's wires carry well-formed operands and no reserved code (30_encoding.md R67,
40_block_primitives.md R81). -/
structure UnitShaped (d : Degree) (u : UnitPort) : Prop where
  sel : u.sel ≠ some 0b111
  a : WideShaped d u.a
  b : WideShaped d u.b
  buf : bufferWellFormed d u.buf = true
  outWide : WideShaped d u.outWide
  outBuf : bufferWellFormed d u.outBuf = true

/-- Every offset below LEN holds a captured byte (20_memory.md R50). -/
def MessageCaptured (s : State) : Prop := ∀ a < s.len, (s.msg.read a).isSome

/-- `POS` stands at the last superblock boundary of the message: what P_PAD is entered with
(43_absorption.md R106). -/
def AtTail (s : State) : Prop :=
  s.degree.superBytes ∣ s.pos ∧ s.pos ≤ s.len ∧ s.len < s.pos + s.degree.superBytes

/-- What each phase is entered with (43_absorption.md R104 to R107, 45_commands.md R124). -/
def EntryCondition (s : State) : Prop :=
  match s.phase with
  | .idle => True
  | .ks => s.ctxValid = false
  | .start => s.ctxValid = true ∧ MessageCaptured s
  | .full =>
    s.ctxValid = true ∧ MessageCaptured s ∧ s.degree.superBytes ∣ s.pos ∧
      s.pos + s.degree.superBytes ≤ s.len
  | .pad => s.ctxValid = true ∧ MessageCaptured s ∧ AtTail s
  | .blank => s.ctxValid = true ∧ AtTail s
  | .mod => s.ctxValid = true ∧ AtTail s
  | .fold => s.ctxValid = true ∧ AtTail s
  | .nonce => s.ctxValid = true ∧ AtTail s
  | .emit => s.ctxValid = true ∧ AtTail s

/-- A state the core can be in. -/
structure SafeState (s : State) : Prop where
  context : ContextShaped s.degree s.ctx
  working : WorkingShaped s.degree s.work
  sum : WideShaped s.degree s.t
  unit : UnitShaped s.degree s.unit
  /-- The message spaces are in canonical form: the captured one, the presented one, those to come. -/
  captured : s.msg.wf = true
  presented : s.ports.msg.wf = true
  coming : ∀ p, HostAction.command p ∈ s.host → p.msg.wf = true
  entry : EntryCondition s
  tag : s.phase ≠ .idle → s.tagValid = false

/-- The core waits: P_IDLE, and no operation issued to the round unit. -/
def Waiting (s : State) : Prop := s.phase = .idle ∧ s.unit.sel = none

/-- Two safe cores, left to the sequencer, that agree on what steers it: the degree, PHASE, the counters,
the flags and, while a command is in progress, LEN (10_state.md R32, 43_absorption.md R110). -/
structure SameControl (s s' : State) : Prop where
  safe : SafeState s ∧ SafeState s'
  host : s.host = [] ∧ s'.host = []
  unit : s.unit.sel = none ∧ s'.unit.sel = none
  degree : s.degree = s'.degree
  phase : s.phase = s'.phase
  len : s.phase ≠ .idle → s.len = s'.len
  pos : s.pos = s'.pos
  cnt : s.cnt = s'.cnt
  idx : s.idx = s'.idx
  ctxValid : s.ctxValid = s'.ctxValid
  tagValid : s.tagValid = s'.tagValid

/-- Every byte of the captured message and of the presented one reads as before. -/
def MessagesKept (s t : State) : Prop :=
  (∀ a, t.msg.read a = s.msg.read a) ∧ ∀ a, t.ports.msg.read a = s.ports.msg.read a

/-- A message space holds exactly the bytes `m` below offset `m.length`. -/
def Holds (mem : Memory) (m : List Byte) : Prop := ∀ a < m.length, mem.read a = m[a]?

/-- A wide value is the 16·D bytes of a byte function from an offset on (20_memory.md R45). -/
def IsBytesFrom (d : Degree) (w : Wide) (byteAt : Nat → Option Byte) (offset : Nat) : Prop :=
  WideShaped d w ∧ ∀ i < d.wideBytes, (toBytes w)[i]? = byteAt (offset + i)

/-- Byte `i` of the padded superblock of the rest of the captured message (30_encoding.md R60): the rest,
0x01, zeros. -/
def paddedByte (s : State) (i : Nat) : Option Byte :=
  if i < s.len - s.pos then s.msg.read (s.pos + i)
  else if i = s.len - s.pos then some 0x01
  else some 0x00

/-- The host action INIT with a key (30_encoding.md R68). -/
def initAction (key : Block128) : HostAction :=
  .command
    { cmd := 0x01, keyIn := portOfBlock key, nonceIn := 0, msgLen := 0, msg := ⟨[]⟩ }

/-- The host action MAC with a nonce and a message (30_encoding.md R68). -/
def macAction (nonce : Block128) (m : List Byte) : HostAction :=
  .command
    { cmd := 0x02, keyIn := 0, nonceIn := portOfBlock nonce, msgLen := m.length,
      msg := Memory.ofBytes m }

/-- The sequencer steps of a MAC (45_commands.md R124, 70_reset_and_hazards.md R161):
`floor(L / SB) + 18`. -/
def macSteps (d : Degree) (m : List Byte) : Nat := m.length / d.superBytes + 18

/-- A host that presents INIT and lets the sequencer run. -/
def initTrace (key : Block128) : List HostAction := [initAction key, .pass]

/-- A host that presents MAC and lets the sequencer run. -/
def macTrace (d : Degree) (nonce : Block128) (m : List Byte) : List HostAction :=
  macAction nonce m :: List.replicate (macSteps d m) .pass

/-- The machine run through a list of host actions, one step each. -/
def runHost (s : State) (actions : List HostAction) : Host.Outcome State Fault Refusal :=
  Sys2Proof.core.run actions.length { s with host := actions }

end Sys2Proof.Safety
end

