-- ==== Sys2Proof/Certificates/Slice0/Obligations.lean ====
section
/-! DEFINITION. The statements about the core, for the provers. Where a statement frames an operation it
writes the whole next state over the old one: every field it does not name is unchanged. A field given as
the next state's own (`ctx := t.ctx`) is one that holds no value afterwards (10_state.md R35). -/

open Sys2Proof Sys2Proof.Machine Sys2Proof.Safety

/-! ### Codes -/

/-- 30_encoding.md sections 3 to 6: encoder and decoder agree in both directions. -/
def Obligations.CodesDecodeToTheirOperation : Prop :=
  (∀ i : Instr, (encode i).wellFormed = true ∧ decode (encode i) = .ok i) ∧
    ∀ c i, decode c = .ok i → c = encode i

/-- R67: reserved codes name no operation, each rejected under its own name. -/
def Obligations.ReservedCodesNameNoOperation : Prop :=
  (∀ c : BitVec 8, c ≠ 0x01 → c ≠ 0x02 → decodeH c = .error .reservedCommand) ∧
    (∀ c : BitVec 4, 10 ≤ c.toNat →
      decodeP4 c = .error .reservedPhase ∧ phaseOfCode c = none) ∧
    decodeP4 0x0 = .error .waitingPhase ∧ decodeU3 0b111 = .error .reservedUnit

/-- Words of 30_encoding.md sections 3 to 5 written out, in the width of their code space. -/
def Obligations.WrittenCodesDecode : Prop :=
  decode (.h 0b00000001#8) = .ok .init ∧ decode (.h 0b00000010#8) = .ok .mac ∧
    decode (.p4 0b0001#4) = .ok .pKs ∧ decode (.p4 0b0101#4) = .ok .pBlank ∧
    decode (.p4 0b1001#4) = .ok .pEmit ∧ decode (.u3 0b010#3) = .ok .waesr ∧
    decode (.u3 0b110#3) = .ok .aesenc

/-! ### Steps -/

/-- A step runs the decoded operation. The host's action list and the answer are the model's (logs
5, 6, 7). -/
def Obligations.StepRunsTheDecodedOperation : Prop :=
  (∀ s i, s.unit.sel = none → decode (.p4 (phaseCode s.phase)) = .ok i →
      (s.host = [] → step s = exec i s) ∧
        ∀ rest, s.host = .pass :: rest → step s = exec i { s with host := rest }) ∧
    (∀ s i c, s.unit.sel = some c → decode (.u3 c) = .ok i →
      (s.host = [] → step s = exec i { s with unit := { s.unit with sel := none } }) ∧
        ∀ rest, s.host = .pass :: rest →
          step s = exec i { s with host := rest, unit := { s.unit with sel := none } }) ∧
    ∀ s p rest i, s.host = .command p :: rest → decode (.h p.cmd) = .ok i →
      (∀ t, exec i { s with host := rest, ports := p, answer := some .accepted } = .next t →
        step s = .next t) ∧
      ∀ r, exec i { s with host := rest, ports := p, answer := some .accepted } = .refused r →
        step s = .next { s with host := rest, answer := some (.refused r) }

/-- 45_commands.md section 2: in P_IDLE, with no command, nothing happens. -/
def Obligations.IdleCoreWaits : Prop :=
  ∀ s, Waiting s →
    (s.host = [] → step s = .next s) ∧
      ∀ rest, s.host = .pass :: rest → step s = .next { s with host := rest }

/-- 45_commands.md section 3, the transition table: where each phase goes. -/
def Obligations.PhasesFollowTheTransitionTable : Prop :=
  ∀ s, SafeState s → s.host = [] → s.unit.sel = none →
    ∃ t, step s = .next t ∧
      (s.phase = .idle → t.phase = .idle) ∧
      (s.phase = .ks → t.phase = .idle) ∧
      (s.phase = .start → s.degree.superBytes ≤ s.len → t.phase = .full) ∧
      (s.phase = .start → s.len < s.degree.superBytes → t.phase = .pad) ∧
      (s.phase = .full → s.degree.superBytes ≤ t.len - t.pos → t.phase = .full) ∧
      (s.phase = .full → t.len - t.pos < s.degree.superBytes → t.phase = .pad) ∧
      (s.phase = .pad → t.phase = .blank) ∧
      (s.phase = .blank → s.cnt < 3 → t.phase = .blank ∧ t.cnt.val = s.cnt.val + 1) ∧
      (s.phase = .blank → s.cnt = 3 → t.phase = .mod ∧ t.idx = 0) ∧
      (s.phase = .mod → s.idx < 8 → t.phase = .mod ∧ t.idx.val = s.idx.val + 1) ∧
      (s.phase = .mod → s.idx = 8 → t.phase = .fold) ∧
      (s.phase = .fold → t.phase = .nonce) ∧
      (s.phase = .nonce → t.phase = .emit) ∧
      (s.phase = .emit → t.phase = .idle)

/-! ### Reset, flags, reads -/

/-- 10_state.md section 8: what the spec states of the state after reset, for each degree. -/
def Obligations.AfterResetTheCoreWaitsWithoutContextOrTag : Prop :=
  State.reset = State.resetFor .x1 ∧
    ∀ d, (State.resetFor d).degree = d ∧ (State.resetFor d).phase = .idle ∧
      (State.resetFor d).ctxValid = false ∧ (State.resetFor d).tagValid = false ∧
      readInfo (State.resetFor d) 0 = .ok 16 ∧ readInfo (State.resetFor d) 1 = .ok 16 ∧
      readInfo (State.resetFor d) 2 = .ok 16 ∧
      readInfo (State.resetFor d) 3 = .ok (BitVec.ofNat 32 d.lanes) ∧
      readInfo (State.resetFor d) 4 = .ok (BitVec.ofNat 32 (64 * d.lanes)) ∧
      readInfo (State.resetFor d) 5 = .ok 0

/-- 70_reset_and_hazards.md section 1: reset is taken in every phase, abandons the command, and
discards the context and the tag. -/
def Obligations.ResetAbandonsEverything : Prop :=
  ∀ s rest, s.host = .reset :: rest →
    ∃ t, step s = .next t ∧ t.phase = .idle ∧ t.ctxValid = false ∧ t.tagValid = false ∧
      t.degree = s.degree ∧ t.host = rest ∧ t.unit.sel = none ∧
      exec .mac t = .refused .noContext ∧ readTag t = .error .tagNotValid

/-- R33: the information bank. -/
def Obligations.InformationBank : Prop :=
  ∀ s : State,
    readInfo s 0 = .ok 16 ∧ readInfo s 1 = .ok 16 ∧ readInfo s 2 = .ok 16 ∧
      readInfo s 3 = .ok (BitVec.ofNat 32 s.degree.lanes) ∧
      readInfo s 4 = .ok (BitVec.ofNat 32 (64 * s.degree.lanes)) ∧
      (∃ v, readInfo s 5 = .ok v ∧ v.getLsbD 0 = s.ctxValid ∧
        (v.getLsbD 1 = true ↔ s.phase ≠ .idle) ∧ v.getLsbD 2 = s.tagValid ∧
        ∀ i, 3 ≤ i → v.getLsbD i = false) ∧
      ∀ index, 6 ≤ index → readInfo s index = .error .noSuchRegister

/-- 45_commands.md section 4: a read is answered and changes nothing else of the state (the answer
and the action list are the model's, logs 5, 6). -/
def Obligations.ReadsAnswerAndChangeNothing : Prop :=
  (∀ s rest, s.host = .readTag :: rest → s.tagValid = true →
      step s = .next
        { s with host := rest, answer := some (.tag (portOfBlock s.tagOut)) }) ∧
    ∀ s rest index v, s.host = .readInfo index :: rest → readInfo s index = .ok v →
      step s = .next { s with host := rest, answer := some (.info v) }

/-- 60_exceptions.md section 2, the table of refusals, in the order of the checks: the state but for
the model's action list and answer is unchanged (logs 5, 6), and no other reason is ever answered.
-/
def Obligations.RefusedActionsChangeNothing : Prop :=
  (∀ s p rest, s.host = .command p :: rest → p.cmd ≠ 0x01 → p.cmd ≠ 0x02 →
      step s = .next { s with host := rest, answer := some (.refused .reservedCommand) }) ∧
    (∀ s p rest, s.host = .command p :: rest → p.cmd = 0x01 ∨ p.cmd = 0x02 → s.phase ≠ .idle →
      step s = .next { s with host := rest, answer := some (.refused .busy) }) ∧
    (∀ s p rest, s.host = .command p :: rest → p.cmd = 0x02 → s.phase = .idle →
      s.ctxValid = false →
      step s = .next { s with host := rest, answer := some (.refused .noContext) }) ∧
    (∀ s rest, s.host = .readTag :: rest → s.tagValid = false →
      step s = .next { s with host := rest, answer := some (.refused .tagNotValid) }) ∧
    (∀ s rest index, s.host = .readInfo index :: rest → 6 ≤ index →
      step s = .next { s with host := rest, answer := some (.refused .noSuchRegister) }) ∧
    ∀ s a rest t r, s.host = a :: rest → a ≠ .pass → step s = .next t →
      t.answer = some (.refused r) →
      r ∈ [Refusal.reservedCommand, .busy, .noContext, .tagNotValid, .noSuchRegister]

/-- 45_commands.md section 4 and 92 D22: what the host can read depends on the degree, PHASE, the
flags and, while it is valid, the tag, and on nothing else. -/
def Obligations.ReadsRevealOnlyStatusAndTag : Prop :=
  ∀ s s' : State, s.degree = s'.degree → s.phase = s'.phase → s.ctxValid = s'.ctxValid →
    s.tagValid = s'.tagValid → (s.tagValid = true → s.tagOut = s'.tagOut) →
    readTag s = readTag s' ∧ ∀ index, readInfo s index = readInfo s' index

/-! ### Ports, formats, message space -/

/-- R61: byte i of a block is bits 8·i + 7 to 8·i of its port. -/
def Obligations.PortsCarryByteIAtBit8I : Prop :=
  (∀ b i, i < 16 →
      (blockBytes b)[i]? = some ((portOfBlock b).extractLsb' (8 * i) 8)) ∧
    (∀ v i, i < 16 → (blockBytes (blockOfPort v))[i]? = some (v.extractLsb' (8 * i) 8)) ∧
    (∀ b, blockOfPort (portOfBlock b) = b) ∧ ∀ v, portOfBlock (blockOfPort v) = v

/-- R58: format K, byte by byte, and its D = 1 form. -/
def Obligations.KeyScheduleInputLayout : Prop :=
  ∀ (d : Degree) (pos lane : Nat), pos ≤ 26 → lane < d.lanes →
    blockBytes (ksin d pos lane) =
        [BitVec.ofNat 8 pos, 0, 0, 0, 0, 0, 0, 0, 0, 0, 0, 0, 0, 0,
          BitVec.ofNat 8 lane, BitVec.ofNat 8 (d.lanes - 1)] ∧
      (d = .x1 → ksin d pos lane = le128 pos)

/-- R59: format A, and that the two auxiliary keys of every degree come from it. -/
def Obligations.AuxiliaryInputLayout : Prop :=
  blockBytes (le128 27) = 0x1b :: List.replicate 15 0 ∧
    blockBytes (le128 28) = 0x1c :: List.replicate 15 0 ∧
    ∀ d key,
      (contextOf d key).nonceKey = keyExpand (aesEncrypt (keyExpand key) (le128 27)) ∧
      (contextOf d key).finalKey = keyExpand (aesEncrypt (keyExpand key) (le128 28))

/-- R60: format P, byte by byte. -/
def Obligations.PaddedSuperblockLayout : Prop :=
  ∀ (d : Degree) (rest : List Byte), rest.length < 64 * d.lanes →
    (padBuffer d rest).length = 64 * d.lanes ∧
      (∀ i, i < rest.length → (padBuffer d rest)[i]? = rest[i]?) ∧
      (padBuffer d rest)[rest.length]? = some 0x01 ∧
      ∀ i, rest.length < i → i < 64 * d.lanes → (padBuffer d rest)[i]? = some 0x00

/-- R40: `MemRead` inside the message gives its bytes, outside it has no meaning, and the two phases
that read stay inside. -/
def Obligations.MemReadReturnsTheMessageBytes : Prop :=
  (∀ s a n, MessageCaptured s → a + n ≤ s.len →
      ∃ m, memRead s a n = some m ∧ m.length = n ∧ ∀ j < n, m[j]? = s.msg.read (a + j)) ∧
    (∀ s a, a ≤ s.len → memRead s a 0 = some []) ∧
    (∀ s a n, s.len < a + n → memRead s a n = none) ∧
    ∀ s, SafeState s →
      (s.phase = .full → s.pos + s.degree.superBytes ≤ s.len) ∧
      (s.phase = .pad → s.pos + (s.len - s.pos) ≤ s.len)

/-- 20_memory.md section 6 and 93 part 2: the message captured is what the host supplied, at the
offsets below MSG_LEN and nowhere else; an offset it did not supply still holds a byte, of free
value (log 10). -/
def Obligations.CaptureTakesTheSuppliedBytes : Prop :=
  ∀ (m : Memory) (len draw a : Nat),
    (a < len → (m.read a).isSome → (m.capture len draw).read a = m.read a) ∧
      (a < len → ((m.capture len draw).read a).isSome) ∧
      (len ≤ a → (m.capture len draw).read a = none) ∧ (m.capture len draw).wf = true

/-- 20_memory.md section 4 and 43_absorption.md section 3: the superblocks of a message are SB bytes
each, `floor(L / SB) + 1` of them, and in order they are the message, 0x01 and zeros: each byte
once, in order. -/
def Obligations.SuperblocksAreThePaddedMessage : Prop :=
  ∀ (d : Degree) (m : List Byte),
    (superblocks d m).length = m.length / (64 * d.lanes) + 1 ∧
      (∀ b ∈ superblocks d m, b.length = 64 * d.lanes) ∧
      (superblocks d m).flatten =
        m ++ 0x01 :: List.replicate (64 * d.lanes - m.length % (64 * d.lanes) - 1) 0x00

/-- R109: the padding is injective. -/
def Obligations.PaddingIsInjective : Prop :=
  ∀ (d : Degree) (m m' : List Byte), superblocks d m = superblocks d m' → m = m'

/-! ### AES and the round unit -/

/-- R76, R79: multiplication in GF(2^8), inverses, and the S-box as the affine image of the inverse.
-/
def Obligations.SboxIsTheAffineImageOfTheInverse : Prop :=
  (∀ b : Byte, gfMul 2 b = if b.getLsbD 7 then (b <<< 1) ^^^ 0x1b else b <<< 1) ∧
    (∀ a b : Byte, gfMul a b =
      (List.range 8).foldl
        (fun acc i => acc ^^^ if a.getLsbD i then (gfMul 2)^[i] b else 0) 0) ∧
    (∀ b : Byte, b ≠ 0 → ∃! c : Byte, gfMul b c = 1) ∧
    (∀ x c : Byte, (x = 0 → c = 0) → (x ≠ 0 → gfMul x c = 1) →
      sbox x = c ^^^ c.rotateLeft 1 ^^^ c.rotateLeft 2 ^^^ c.rotateLeft 3 ^^^
        c.rotateLeft 4 ^^^ 0x63) ∧
    ∀ b : Block128, blockBytes (subBytes b) = (blockBytes b).map sbox

/-- R77: ShiftRows, byte by byte. -/
def Obligations.ShiftRowsRotatesRows : Prop :=
  ∀ (b : Block128) (c r : Nat), c < 4 → r < 4 →
    (blockBytes (shiftRows b))[4 * c + r]? = (blockBytes b)[4 * ((c + r) % 4) + r]?

/-- R78: MixColumns, byte by byte; a column of four equal bytes is unchanged; the rule's example. -/
def Obligations.MixColumnsFormula : Prop :=
  (∀ (b : Block128) (c : Nat) (a0 a1 a2 a3 : Byte), c < 4 →
      (blockBytes b)[4 * c]? = some a0 → (blockBytes b)[4 * c + 1]? = some a1 →
      (blockBytes b)[4 * c + 2]? = some a2 → (blockBytes b)[4 * c + 3]? = some a3 →
      (blockBytes (mixColumns b))[4 * c]? =
          some (gfMul 2 a0 ^^^ gfMul 3 a1 ^^^ a2 ^^^ a3) ∧
        (blockBytes (mixColumns b))[4 * c + 1]? =
          some (a0 ^^^ gfMul 2 a1 ^^^ gfMul 3 a2 ^^^ a3) ∧
        (blockBytes (mixColumns b))[4 * c + 2]? =
          some (a0 ^^^ a1 ^^^ gfMul 2 a2 ^^^ gfMul 3 a3) ∧
        (blockBytes (mixColumns b))[4 * c + 3]? =
          some (gfMul 3 a0 ^^^ a1 ^^^ a2 ^^^ gfMul 2 a3)) ∧
    (∀ x : Byte, gfMul 3 x = gfMul 2 x ^^^ x) ∧
    (∀ x : Byte, mixColumn ⟨x, x, x, x⟩ = ⟨x, x, x, x⟩) ∧
    mixColumn ⟨0xdb, 0x13, 0x53, 0x45⟩ = ⟨0x8e, 0x4d, 0xa1, 0xbc⟩

/-- 40_block_primitives.md section 1: each lane of a result depends on the same lane of the operands
only, and a result has D lanes. -/
def Obligations.WideOperationsAreLanewise : Prop :=
  ∀ (d : Degree) (a b : Wide), WideShaped d a → WideShaped d b →
    WideShaped d (wideZero d) ∧ WideShaped d (wideXor a b) ∧
      WideShaped d (wideAesRound a b) ∧
      ∀ (l : Nat) (x y : Block128), a[l]? = some x → b[l]? = some y →
        (wideZero d)[l]? = some Block128.zero ∧ (wideXor a b)[l]? = some (x.xor y) ∧
          (wideAesRound a b)[l]? = some (aesRound1 x y)

/-- R74: WXOR, its code, byte by byte, on wide values and on single blocks, its two corner cases,
and the rule's example; the result of the operation; it is commutative and associative
(40_block_primitives.md section 6). -/
def Obligations.WxorIsBytewise : Prop :=
  decode (.u3 0b001#3) = .ok .wxor ∧
  (∀ (d : Degree) (a b : Wide), WideShaped d a → WideShaped d b →
      toBytes (wideXor a b) = List.zipWith (· ^^^ ·) (toBytes a) (toBytes b) ∧
        wideXor a a = wideZero d ∧ wideXor a (wideZero d) = a) ∧
    (∀ a b : Block128,
      blockBytes (a.xor b) = List.zipWith (· ^^^ ·) (blockBytes a) (blockBytes b)) ∧
    (∀ a b c : Wide, wideXor a b = wideXor b a ∧
      wideXor (wideXor a b) c = wideXor a (wideXor b c)) ∧
    (∀ s : State, exec .wxor s =
      .next { s with unit := { s.unit with outWide := wideXor s.unit.a s.unit.b } }) ∧
    wideXor [blockOfPort 0x0f0e0d0c0b0a09080706050403020100]
        [blockOfPort 0xffffffffffffffffffffffffffffffff] =
      [blockOfPort 0xf0f1f2f3f4f5f6f7f8f9fafbfcfdfeff]

/-- 40_block_primitives.md section 4, 70_reset_and_hazards.md section 3: the round key is XORed in
last. -/
def Obligations.RoundKeyIsXoredLast : Prop :=
  ∀ (d : Degree) (a k : Wide), WideShaped d a → WideShaped d k →
    wideAesRound a k = wideXor (wideAesRound a (wideZero d)) k ∧
      wideAesRound (wideZero d) (wideZero d) =
        List.replicate d.lanes (blockOf (List.replicate 16 0x63))

/-- 40_block_primitives.md section 4: for every fixed key the round is a bijection on wide values.
-/
def Obligations.AesRoundIsABijection : Prop :=
  ∀ (d : Degree) (k : Wide), WideShaped d k →
    (∀ a b, WideShaped d a → WideShaped d b → wideAesRound a k = wideAesRound b k → a = b) ∧
      ∀ y, WideShaped d y → ∃ a, WideShaped d a ∧ wideAesRound a k = y

/-- R82 and 40_block_primitives.md section 5: the code and the result of WSTORE; `to_bytes` and
`from_bytes` are inverse, and lane `l` of a loaded value is bytes 16·l to 16·l + 15. -/
def Obligations.LoadAndStoreAreInverse : Prop :=
  decode (.u3 0b100#3) = .ok .wstore ∧
  (∀ (d : Degree) (buf : List Byte), buf.length = 16 * d.lanes →
      WideShaped d (fromBytes d buf) ∧ toBytes (fromBytes d buf) = buf ∧
        ∀ l j, l < d.lanes → j < 16 →
          ((fromBytes d buf)[l]?.bind fun b => (blockBytes b)[j]?) = buf[16 * l + j]?) ∧
    (∀ (d : Degree) (w : Wide), WideShaped d w →
      (toBytes w).length = 16 * d.lanes ∧ fromBytes d (toBytes w) = w) ∧
    ∀ s : State, exec .wstore s =
      .next { s with unit := { s.unit with outBuf := toBytes s.unit.a } }

/-- 40_block_primitives.md sections 1, 2, 4, 5, 41_aes128_scalar.md sections 2, 3: each unit
operation completes, puts its result on its result wire and touches nothing else (the wires are the
model's, log 7). WLOAD completes on a buffer of 16·D bytes; a buffer of another length is no
well-formed operand, and the model refuses it (its name, log 16). -/
def Obligations.UnitOperationsCompleteAndTouchOnlyTheirResult : Prop :=
  (∀ s, exec .wzero s = .next { s with unit := { s.unit with outWide := wideZero s.degree } }) ∧
    (∀ s, exec .waesr s =
      .next { s with unit := { s.unit with outWide := wideAesRound s.unit.a s.unit.b } }) ∧
    (∀ s : State, s.unit.buf.length = 16 * s.degree.lanes →
      exec .wload s =
        .next { s with unit := { s.unit with outWide := fromBytes s.degree s.unit.buf } }) ∧
    (∀ s : State, s.unit.buf.length ≠ 16 * s.degree.lanes →
      exec .wload s = .refused .operandLength) ∧
    (∀ s, exec .keyexp s =
      .next { s with unit := { s.unit with outSched := keyExpand s.unit.blk } }) ∧
    ∀ s, exec .aesenc s =
      .next { s with unit := { s.unit with outBlk := aesEncrypt s.unit.sched s.unit.blk } }

/-- R86: the code and the result of KEYEXP, the recurrence of the 44 words of the key expansion, the
round keys laid end to end as words of 4 bytes, and the rule's examples. -/
def Obligations.KeyExpansionRecurrence : Prop :=
  decode (.u3 0b101#3) = .ok .keyexp ∧
    (∀ s : State, exec .keyexp s =
      .next { s with unit := { s.unit with outSched := keyExpand s.unit.blk } }) ∧
  (∀ (key : Block128),
      let w : Nat → Column := columnOf ((keyExpand key).toList.flatMap blockBytes)
      let rcon : List Byte := [0x01, 0x02, 0x04, 0x08, 0x10, 0x20, 0x40, 0x80, 0x1b, 0x36]
      (∀ i < 4, w i = columnOf (blockBytes key) i) ∧
        (∀ i, 4 ≤ i → i < 44 → i % 4 ≠ 0 → w i = (w (i - 4)).xor (w (i - 1))) ∧
        (∀ i, 4 ≤ i → i < 44 → i % 4 = 0 →
          w i = (w (i - 4)).xor
            ⟨sbox (w (i - 1)).b1 ^^^ rcon.getD (i / 4 - 1) 0, sbox (w (i - 1)).b2,
              sbox (w (i - 1)).b3, sbox (w (i - 1)).b0⟩) ∧
        ∀ r : Fin 11, (keyExpand key)[r.val] =
          ⟨w (4 * r.val), w (4 * r.val + 1), w (4 * r.val + 2), w (4 * r.val + 3)⟩) ∧
    (keyExpand Block128.zero)[1] = blockOfPort 0x63636362636363626363636263636362 ∧
    (keyExpand Block128.zero)[10] = blockOfPort 0x8e188f6fcf51e92311e2923ecb5befb4 ∧
    (keyExpand (blockOfPort 0x0f0e0d0c0b0a09080706050403020100))[10] =
      blockOfPort 0xc5302b4d8ba707f3174a94e37f1d1113

/-- R87, R88: the code and the result of AESENC, standard AES-128 as its ten rounds, the last one
without MixColumns, and the examples of the two rules. -/
def Obligations.AesEncryptionRounds : Prop :=
  decode (.u3 0b110#3) = .ok .aesenc ∧
    (∀ s : State, exec .aesenc s =
      .next { s with unit := { s.unit with outBlk := aesEncrypt s.unit.sched s.unit.blk } }) ∧
  (∀ (rk : Sched) (p : Block128), aesEncrypt rk p =
      let y := (List.finRange 9).foldl
        (fun y i => addRoundKey (mixColumns (shiftRows (subBytes y))) rk[i.val + 1])
        (p.xor rk[0])
      addRoundKey (shiftRows (subBytes y)) rk[10]) ∧
    aesEncrypt (keyExpand (blockOfPort 0x0f0e0d0c0b0a09080706050403020100))
        (blockOfPort 0xffeeddccbbaa99887766554433221100) =
      blockOfPort 0x5ac5b47080b7cdd830047b6ad8e0c469 ∧
    aesEncrypt (keyExpand Block128.zero) Block128.zero =
      blockOfPort 0x2e2b34ca59fa4c883b2c8aefd44be966 ∧
    (∀ y k : Block128, aesLast y k = addRoundKey (shiftRows (subBytes y)) k) ∧
    aesLast (blockOfPort 0x0848f8e92a8dc69a2be2f4a0bee33d19)
        (blockOfPort 0x05766c2a3939a323b12c548817fefaa0) =
      blockOfPort 0xe0ee4b34c828e29b1f7ee06827a34574

/-! ### Commands -/

/-- 45_commands.md section 2: INIT in P_IDLE is accepted. The context and TAG_OUT hold no value from
here on (logs 3, 4). -/
def Obligations.InitIsAcceptedWhenIdle : Prop :=
  ∀ s : State, s.phase = .idle →
    ∃ t, exec .init s = .next t ∧ t.k = blockOfPort s.ports.keyIn ∧ t.ctxValid = false ∧
      t.tagValid = false ∧ t.phase = .ks ∧ MessagesKept s t ∧
      t = { s with
            k := t.k, ctxValid := false, tagValid := false, phase := .ks, ctx := t.ctx,
            tagOut := t.tagOut, freeDraws := t.freeDraws }

/-- 45_commands.md section 2: MAC in P_IDLE with a valid context is accepted and the message is
captured. TAG_OUT holds no value from here on (logs 3, 4). -/
def Obligations.MacIsAcceptedWhenIdleWithContext : Prop :=
  ∀ s : State, s.phase = .idle → s.ctxValid = true →
    ∃ t, exec .mac s = .next t ∧ t.nonce = blockOfPort s.ports.nonceIn ∧
      t.len = s.ports.msgLen ∧ t.tagValid = false ∧ t.phase = .start ∧ MessageCaptured t ∧
      (∀ a < t.len, (s.ports.msg.read a).isSome → t.msg.read a = s.ports.msg.read a) ∧
      t = { s with
            nonce := t.nonce, len := t.len, msg := t.msg, tagValid := false, phase := .start,
            tagOut := t.tagOut, freeDraws := t.freeDraws }

/-- 45_commands.md section 2: the order of the checks on the two commands. -/
def Obligations.CommandsAreRefusedBusyThenNoContext : Prop :=
  (∀ s : State, s.phase ≠ .idle →
      exec .init s = .refused .busy ∧ exec .mac s = .refused .busy) ∧
    ∀ s : State, s.phase = .idle → s.ctxValid = false → exec .mac s = .refused .noContext

/-! ### Key schedule -/

/-- 42_key_schedule.md sections 3 and 4: what P_KS writes. K and E_K hold no value afterwards (log
3). -/
def Obligations.KeyScheduleBuildsTheContext : Prop :=
  ∀ s : State, ∃ t, exec .pKs s = .next t ∧
    (∀ (i : Fin 9) (l : Nat), l < s.degree.lanes →
      t.ctx.initState[i.val][l]? =
        some (aesEncrypt (keyExpand s.k) (ksin s.degree i.val l))) ∧
    (∀ (i : Fin 18) (l : Nat), l < s.degree.lanes →
      t.ctx.subkey[i.val][l]? =
        some (aesEncrypt (keyExpand s.k) (ksin s.degree (i.val + 9) l))) ∧
    (∀ i : Fin 9, WideShaped s.degree t.ctx.initState[i.val]) ∧
    (∀ i : Fin 18, WideShaped s.degree t.ctx.subkey[i.val]) ∧
    t.ctx.nonceKey = keyExpand (aesEncrypt (keyExpand s.k) (le128 27)) ∧
    t.ctx.finalKey = keyExpand (aesEncrypt (keyExpand s.k) (le128 28)) ∧
    MessagesKept s t ∧
    t = { s with
          ctx := t.ctx, ctxValid := true, phase := .idle, k := t.k, eK := t.eK,
          freeDraws := t.freeDraws }

/-- R92: PACK puts `c[l]` in lane `l`. -/
def Obligations.PackPutsBlocksInLaneOrder : Prop :=
  ∀ (d : Degree) (c : List Block128), c.length = d.lanes →
    pack d c = c ∧ pack d c = fromBytes d (c.flatMap blockBytes)

/-- 42_key_schedule.md section 3 (domain separation): under one key, no lane of a context block of
one degree equals a lane of the block at the same position of another degree. -/
def Obligations.DegreesGiveDifferentContextLanes : Prop :=
  ∀ (d d' : Degree) (key : Block128) (pos l l' : Nat) (x y : Block128), d ≠ d' → pos ≤ 26 →
    (contextBlock d (keyExpand key) pos)[l]? = some x →
    (contextBlock d' (keyExpand key) pos)[l']? = some y → x ≠ y

/-! ### Absorption -/

/-- R104: P_START, its code, what it is entered on, what it writes. -/
def Obligations.StartSeedsTheWorkingRegisters : Prop :=
  decode (.p4 0x2#4) = .ok .pStart ∧ (∀ s t, exec .mac s = .next t → t.phase = .start) ∧
    ∀ s : State, exec .pStart s =
    .next { s with
      work := { s := s.ctx.initState, rr := wideZero s.degree, r0 := wideZero s.degree,
                r1 := wideZero s.degree, r2 := wideZero s.degree }
      pos := 0
      phase := if s.len ≥ 64 * s.degree.lanes then .full else .pad }

/-- 43_absorption.md section 1: the thirteen assignments of ROUND read the registers before the
round. -/
def Obligations.RoundReadsOldRegisters : Prop :=
  ∀ (w : Working) (m0 m1 m2 m3 : Wide),
    (roundStep w m0 m1 m2 m3).s[8] = wideAesRound w.s[7] m3 ∧
      (roundStep w m0 m1 m2 m3).s[7] = wideAesRound w.s[6] m1 ∧
      (roundStep w m0 m1 m2 m3).s[6] = wideAesRound w.s[5] m1 ∧
      (roundStep w m0 m1 m2 m3).s[5] = wideAesRound w.s[4] m0 ∧
      (roundStep w m0 m1 m2 m3).s[4] = wideAesRound w.s[3] m0 ∧
      (roundStep w m0 m1 m2 m3).s[3] = wideAesRound w.s[2] (wideXor w.r1 w.r2) ∧
      (roundStep w m0 m1 m2 m3).s[2] = wideAesRound w.s[1] m3 ∧
      (roundStep w m0 m1 m2 m3).s[1] = wideAesRound w.s[0] m3 ∧
      (roundStep w m0 m1 m2 m3).s[0] = wideXor (wideXor w.s[0] w.s[8]) m2 ∧
      (roundStep w m0 m1 m2 m3).r2 = w.r1 ∧ (roundStep w m0 m1 m2 m3).r1 = w.r0 ∧
      (roundStep w m0 m1 m2 m3).r0 = wideXor w.rr m1 ∧ (roundStep w m0 m1 m2 m3).rr = m2

/-- R102: the rolling register reads its four old values; M1 of a round keys S[3] two and three
rounds later, M2 three and four rounds later; and what that gives in the first rounds of a MAC,
where the register starts at zero. -/
def Obligations.RollingRegisterCarriesEarlierBlocks : Prop :=
  (∀ (w : Working) (a0 a1 a2 a3 b0 b1 b2 b3 c0 c1 c2 c3 e0 e1 e2 e3 : Wide),
    let w1 := roundStep w a0 a1 a2 a3
    let w2 := roundStep w1 b0 b1 b2 b3
    let w3 := roundStep w2 c0 c1 c2 c3
    let w4 := roundStep w3 e0 e1 e2 e3
    (w1.rr, w1.r0, w1.r1, w1.r2) = (a2, wideXor w.rr a1, w.r0, w.r1) ∧
      w1.s[3] = wideAesRound w.s[2] (wideXor w.r1 w.r2) ∧
      wideXor w2.r1 w2.r2 = wideXor (wideXor w.rr a1) w.r0 ∧
      wideXor w3.r1 w3.r2 = wideXor (wideXor a2 b1) (wideXor w.rr a1) ∧
      wideXor w4.r1 w4.r2 = wideXor (wideXor b2 c1) (wideXor a2 b1)) ∧
    ∀ (d : Degree) (init : Vector Wide 9) (a0 a1 a2 a3 b0 b1 b2 b3 : Wide),
      WideShaped d a1 →
      let w0 := workingStart d init
      let w1 := roundStep w0 a0 a1 a2 a3
      let w2 := roundStep w1 b0 b1 b2 b3
      wideXor w0.r1 w0.r2 = wideZero d ∧
        (w1.rr, w1.r0, w1.r1, w1.r2) = (a2, a1, wideZero d, wideZero d) ∧
        wideXor w1.r1 w1.r2 = wideZero d ∧ w2.r1 = a1 ∧ wideXor w2.r1 w2.r2 = a1

/-- 43_absorption.md section 3, 20_memory.md section 2: P_FULL absorbs the next SB bytes of the
message, `Mj` being the 16·D bytes from `POS + 16·D·j` on. -/
def Obligations.FullAbsorbsTheNextSuperblock : Prop :=
  ∀ s : State, MessageCaptured s → s.pos + 64 * s.degree.lanes ≤ s.len →
    ∃ m0 m1 m2 m3,
      IsBytesFrom s.degree m0 s.msg.read s.pos ∧
      IsBytesFrom s.degree m1 s.msg.read (s.pos + 16 * s.degree.lanes) ∧
      IsBytesFrom s.degree m2 s.msg.read (s.pos + 32 * s.degree.lanes) ∧
      IsBytesFrom s.degree m3 s.msg.read (s.pos + 48 * s.degree.lanes) ∧
      exec .pFull s =
        .next { s with
          work := roundStep s.work m0 m1 m2 m3
          pos := s.pos + 64 * s.degree.lanes
          phase :=
            if s.len - (s.pos + 64 * s.degree.lanes) ≥ 64 * s.degree.lanes then .full
            else .pad }

/-- 43_absorption.md section 3, 30_encoding.md section 1: P_PAD absorbs the rest of the message,
0x01 and zeros. -/
def Obligations.PadAbsorbsThePaddedRest : Prop :=
  ∀ s : State, MessageCaptured s → s.pos ≤ s.len → s.len < s.pos + 64 * s.degree.lanes →
    ∃ m0 m1 m2 m3,
      IsBytesFrom s.degree m0 (paddedByte s) 0 ∧
      IsBytesFrom s.degree m1 (paddedByte s) (16 * s.degree.lanes) ∧
      IsBytesFrom s.degree m2 (paddedByte s) (32 * s.degree.lanes) ∧
      IsBytesFrom s.degree m3 (paddedByte s) (48 * s.degree.lanes) ∧
      exec .pPad s =
        .next { s with work := roundStep s.work m0 m1 m2 m3, cnt := 0, phase := .blank }

/-- 20_memory.md section 1: outside the entry conditions of P_FULL and P_PAD there is no read or no
padded superblock: the step is refused (the names are the model's, log 12). 00_scope.md section 6: no
operation faults, and a step only on the unit code that is never issued (log 13). -/
def Obligations.AbsorptionStopsOutsideItsEntryCondition : Prop :=
  (∀ s : State, s.len < s.pos + 64 * s.degree.lanes → exec .pFull s = .refused .memReadOutside) ∧
    (∀ s : State, s.len < s.pos → exec .pPad s = .refused .memReadOutside) ∧
    (∀ s : State, MessageCaptured s → s.pos + 64 * s.degree.lanes ≤ s.len →
      exec .pPad s = .refused .padTooLong) ∧
    (∀ i s f, exec i s ≠ .fault f) ∧
    ∀ s f, step s = .fault f → s.unit.sel = some 0b111

/-- 43_absorption.md section 3: P_BLANK. -/
def Obligations.BlankRoundsAreCounted : Prop :=
  (∀ s : State, s.cnt = 3 → exec .pBlank s =
      .next { s with
        work := roundStep s.work (wideZero s.degree) (wideZero s.degree) (wideZero s.degree)
          (wideZero s.degree)
        idx := 0
        phase := .mod }) ∧
    ∀ s : State, s.cnt ≠ 3 → ∃ t, exec .pBlank s = .next t ∧ t.cnt.val = s.cnt.val + 1 ∧
      t = { s with
            work := roundStep s.work (wideZero s.degree) (wideZero s.degree) (wideZero s.degree)
              (wideZero s.degree)
            cnt := t.cnt
            phase := .blank }

/-! ### Finalization -/

/-- 44_finalization.md section 1: the modified AES as one XOR, nine keyed rounds and one round with
the zero key; window `i` reads the subkeys `i` to `i + 9` and no other. -/
def Obligations.ModifiedAesReadsItsWindow : Prop :=
  (∀ (d : Degree) (k : Vector Wide 18) (x : Wide) (i : Fin 9),
    aesMod d k i x =
      wideAesRound (wideAesRound (wideAesRound (wideAesRound (wideAesRound (wideAesRound
        (wideAesRound (wideAesRound (wideAesRound (wideAesRound
          (wideXor x k[i.val]) k[i.val + 1]) k[i.val + 2]) k[i.val + 3]) k[i.val + 4])
          k[i.val + 5]) k[i.val + 6]) k[i.val + 7]) k[i.val + 8]) k[i.val + 9]) (wideZero d)) ∧
    ∀ (d : Degree) (k k' : Vector Wide 18) (i : Fin 9) (x : Wide),
      (∀ j : Fin 18, i.val ≤ j.val → j.val ≤ i.val + 9 → k[j.val] = k'[j.val]) →
      aesMod d k i x = aesMod d k' i x

/-- 44_finalization.md section 2: P_MOD folds `S[IDX]` into T. -/
def Obligations.ModFoldsOneStateBlock : Prop :=
  ∀ s : State, ∃ t, exec .pMod s = .next t ∧
    (s.idx = 0 → t.t = aesMod s.degree s.ctx.subkey s.idx s.work.s[s.idx.val]) ∧
    (s.idx ≠ 0 → t.t = wideXor s.t (aesMod s.degree s.ctx.subkey s.idx s.work.s[s.idx.val])) ∧
    (s.idx = 8 → t.phase = .fold ∧ t.idx = s.idx) ∧
    (s.idx ≠ 8 → t.phase = .mod ∧ t.idx.val = s.idx.val + 1) ∧
    MessagesKept s t ∧ t = { s with t := t.t, idx := t.idx, phase := t.phase }

/-- 44_finalization.md section 2: P_FOLD, T128 is the exclusive or of the lanes of T. -/
def Obligations.FoldXorsTheLanes : Prop :=
  ∀ s : State, WideShaped s.degree s.t →
    ∃ b, exec .pFold s = .next { s with t128 := b, phase := .nonce } ∧
      (∀ l0, s.t = [l0] → b = l0) ∧ (∀ l0 l1, s.t = [l0, l1] → b = l0.xor l1) ∧
      ∀ l0 l1 l2 l3, s.t = [l0, l1, l2, l3] → b = ((l0.xor l1).xor l2).xor l3

/-- 44_finalization.md section 2: P_NONCE, the nonce in clear and encrypted. -/
def Obligations.NonceEntersTwice : Prop :=
  ∀ s : State, exec .pNonce s =
    .next { s with
      nEnc := aesEncrypt s.ctx.nonceKey s.nonce
      t128 := (s.t128.xor s.nonce).xor (aesEncrypt s.ctx.nonceKey s.nonce)
      phase := .emit }

/-- 44_finalization.md section 2: P_EMIT, the tag. NONCE, LEN, the working registers, T, T128 and
N_ENC hold no value afterwards (log 3). -/
def Obligations.EmitWritesTheTag : Prop :=
  ∀ s : State, ∃ t, exec .pEmit s = .next t ∧ t.tagOut = aesEncrypt s.ctx.finalKey s.t128 ∧
    t.tagValid = true ∧ t.phase = .idle ∧ t.ctx = s.ctx ∧ t.ctxValid = s.ctxValid ∧
    MessagesKept s t ∧
    t = { s with
          tagOut := t.tagOut, tagValid := true, phase := .idle, nonce := t.nonce, len := t.len,
          work := t.work, t := t.t, t128 := t.t128, nEnc := t.nEnc, freeDraws := t.freeDraws }

/-! ### Whole-machine rules -/

/-- R24: no phase of a MAC, nor MAC itself, nor any other step writes a context register, but for
P_KS, the acceptance of INIT, and reset. -/
def Obligations.OnlyInitAndResetTouchTheContext : Prop :=
  (∀ i s t, exec i s = .next t → i ≠ .init → i ≠ .pKs →
      t.ctx = s.ctx ∧ t.ctxValid = s.ctxValid) ∧
    ∀ s t, step s = .next t → s.phase ≠ .ks →
      (∀ rest, s.host ≠ .reset :: rest) →
      (∀ p rest, s.host = .command p :: rest → p.cmd ≠ 0x01) →
      t.ctx = s.ctx ∧ t.ctxValid = s.ctxValid

/-- 20_memory.md section 1: the core never writes memory. Every byte of the captured and of the
presented message reads as before after every operation but MAC, which captures a message, and after
every step whose host action neither presents a command nor resets. -/
def Obligations.CoreNeverWritesMemory : Prop :=
  (∀ i s t, exec i s = .next t → i ≠ .mac → MessagesKept s t) ∧
    (∀ s t, exec .mac s = .next t → ∀ a, t.ports.msg.read a = s.ports.msg.read a) ∧
    ∀ s t, step s = .next t → (∀ p rest, s.host ≠ .command p :: rest) →
      (∀ rest, s.host ≠ .reset :: rest) → MessagesKept s t

/-- 10_state.md section 4: TAG_VALID rises in P_EMIT only; while it stays up TAG_OUT keeps its
value. -/
def Obligations.TagBecomesValidOnlyByEmit : Prop :=
  ∀ s t, step s = .next t → t.tagValid = true →
    (s.phase = .emit ∧ t.tagOut = aesEncrypt s.ctx.finalKey s.t128) ∨
      (s.tagValid = true ∧ t.tagOut = s.tagOut)

/-- 00_scope.md section 5: the degree never changes. -/
def Obligations.DegreeNeverChanges : Prop :=
  ∀ s t, step s = .next t → t.degree = s.degree

/-- 10_state.md section 8: the state after reset is safe, for each degree. -/
def Obligations.ResetStateIsSafe : Prop :=
  ∀ d, SafeState (State.resetFor d)

/-- 60_exceptions.md section 1, 10_state.md sections 1 and 3: from every safe state a step goes on,
to a safe state: no fault, no refusal ends a run, the wide registers keep D lanes, the message
spaces their canonical form, and each phase is entered under its entry condition. -/
def Obligations.SafeStateStepsToSafeState : Prop :=
  ∀ s, SafeState s → ∃ t, step s = .next t ∧ SafeState t

/-- 43_absorption.md section 4, 70_reset_and_hazards.md section 3: control depends on lengths and the
degree only. A step of the sequencer keeps two cores alike in control, whatever their keys, nonces,
messages and working registers; and two MACs of messages of one length, on two waiting cores of one
degree, go through the same phases and read at the same offsets, after any number of steps. The host's
action list is the model's (log 5). -/
def Obligations.ControlFlowIsIndependentOfData : Prop :=
  (∀ s s', SameControl s s' →
      ∃ t t', step s = .next t ∧ step s' = .next t' ∧ SameControl t t') ∧
    ∀ (s s' : State) (p p' : Ports), Waiting s → Waiting s' → s.degree = s'.degree →
      s.ctxValid = true → s'.ctxValid = true → p.cmd = 0x02 → p'.cmd = 0x02 →
      p.msgLen = p'.msgLen →
      ∀ k, ∃ t t', runHost s (.command p :: List.replicate k .pass) = .next t ∧
        runHost s' (.command p' :: List.replicate k .pass) = .next t' ∧ t.phase = t'.phase ∧
        (t.phase = .full ∨ t.phase = .pad → t.pos = t'.pos ∧ t.len = t'.len)

/-- 45_commands.md section 5 (a): INIT and one sequencer step leave the context of the key, whatever
the state was before. The host's action list is the model's (log 5). -/
def Obligations.InitComputesTheContext : Prop :=
  ∀ (s : State) (key : Block128), Waiting s →
    ∃ t, runHost s (initTrace key) = .next t ∧ Waiting t ∧ t.host = [] ∧
      t.ctx = contextOf s.degree key ∧ t.ctxValid = true ∧ t.tagValid = false ∧
      t.degree = s.degree

/-- 45_commands.md sections 3 and 5 (b): MAC and `floor(L / SB) + 18` sequencer steps leave the tag
of the message, and the context as it was; the core is busy until the last step. The host's action
list is the model's (log 5). -/
def Obligations.MacComputesTheTag : Prop :=
  ∀ (s : State) (p : Ports) (m : List Byte), Waiting s → s.ctxValid = true → p.cmd = 0x02 →
    p.msgLen = m.length → Holds p.msg m →
    (∃ t, runHost s (.command p :: List.replicate (m.length / (64 * s.degree.lanes) + 18) .pass) =
        .next t ∧ Waiting t ∧ t.host = [] ∧ t.tagValid = true ∧
        t.tagOut = macOf s.degree s.ctx m (blockOfPort p.nonceIn) ∧ t.ctx = s.ctx ∧
        t.ctxValid = true ∧ t.degree = s.degree) ∧
      ∀ k < m.length / (64 * s.degree.lanes) + 18,
        ∃ t, runHost s (.command p :: List.replicate k .pass) = .next t ∧ t.phase ≠ .idle

/-- 45_commands.md section 6, laws 1 and 2: two tags under one INIT are the tags under two
independent INITs, whatever the cores held before. The host's action list is the model's (log 5). -/
def Obligations.ContextReuseGivesTheSameTags : Prop :=
  ∀ (s s' s'' : State) (key n1 n2 : Block128) (m1 m2 : List Byte), Waiting s → Waiting s' →
    Waiting s'' → s.degree = s'.degree → s.degree = s''.degree →
    ∃ t1 t2 u1 u2,
      runHost s (initTrace key ++ macTrace s.degree n1 m1) = .next t1 ∧
      runHost s (initTrace key ++ (macTrace s.degree n1 m1 ++ macTrace s.degree n2 m2)) =
        .next t2 ∧
      runHost s' (initTrace key ++ macTrace s.degree n1 m1) = .next u1 ∧
      runHost s'' (initTrace key ++ macTrace s.degree n2 m2) = .next u2 ∧
      t1.tagValid = true ∧ t2.tagValid = true ∧ u1.tagValid = true ∧ u2.tagValid = true ∧
      t1.tagOut = u1.tagOut ∧ t2.tagOut = u2.tagOut

/-- 95_test_vectors.md section 1.1: the three tags the source document gives. -/
def Obligations.DocumentVectors : Prop :=
  macOf .x1 (contextOf .x1 Block128.zero) (List.replicate 16 0x00) Block128.zero =
      blockOfPort 0x64f81abb509b2fec73ccfa771b47fa26 ∧
    macOf .x1 (contextOf .x1 Block128.zero) [] Block128.zero =
      blockOfPort 0x1f346a91fb337d53b5fe9c3c852e2852 ∧
    macOf .x1 (contextOf .x1 (blockOfPort 0x0f0e0d0c0b0a09080706050403020100))
        ((List.range 65).map (BitVec.ofNat 8))
        (blockOfPort 0x0f0e0d0c0b0a09080706050403020100) =
      blockOfPort 0xefbe75d7c46a10d5e124028bbefd8dd5
end

