-- ==== Sys2Proof/Laws/State.lean ====
section
/-! SUPPORT. One lemma per field per named update of the state: what `roundStep`, `workingStart`, `freeWorking`,
`freeContext`, `answered`, `hostReset` and `placeCode` leave in each field. -/

namespace Sys2Proof.Laws

open Sys2Proof.Machine

section Working

variable (w : Working) (m0 m1 m2 m3 : Wide) (d : Degree) (buf : List Byte)

@[simp] theorem roundStep_rr : (roundStep w m0 m1 m2 m3).rr = m2 := rfl
@[simp] theorem roundStep_r0 : (roundStep w m0 m1 m2 m3).r0 = wideXor w.rr m1 := rfl
@[simp] theorem roundStep_r1 : (roundStep w m0 m1 m2 m3).r1 = w.r0 := rfl
@[simp] theorem roundStep_r2 : (roundStep w m0 m1 m2 m3).r2 = w.r1 := rfl

/-- The state blocks after a round (R100). -/
theorem roundStep_s : (roundStep w m0 m1 m2 m3).s =
    #v[wideXor (wideXor w.s[0] w.s[8]) m2, wideAesRound w.s[0] m3, wideAesRound w.s[1] m3,
      wideAesRound w.s[2] (wideXor w.r1 w.r2), wideAesRound w.s[3] m0, wideAesRound w.s[4] m0,
      wideAesRound w.s[5] m1, wideAesRound w.s[6] m1, wideAesRound w.s[7] m3] := rfl

variable (init : Vector Wide 9)

@[simp] theorem workingStart_s : (workingStart d init).s = init := rfl
@[simp] theorem workingStart_rr : (workingStart d init).rr = wideZero d := rfl
@[simp] theorem workingStart_r0 : (workingStart d init).r0 = wideZero d := rfl
@[simp] theorem workingStart_r1 : (workingStart d init).r1 = wideZero d := rfl
@[simp] theorem workingStart_r2 : (workingStart d init).r2 = wideZero d := rfl

end Working

section FreeValues

variable (s : State)

@[simp] theorem freeWorking_s :
    (freeWorking s).s = Vector.ofFn fun i => freeWide s (27 + i.val) := rfl
@[simp] theorem freeWorking_rr : (freeWorking s).rr = freeWide s 36 := rfl
@[simp] theorem freeWorking_r0 : (freeWorking s).r0 = freeWide s 37 := rfl
@[simp] theorem freeWorking_r1 : (freeWorking s).r1 = freeWide s 38 := rfl
@[simp] theorem freeWorking_r2 : (freeWorking s).r2 = freeWide s 39 := rfl
@[simp] theorem freeContext_initState :
    (freeContext s).initState = Vector.ofFn fun i => freeWide s i.val := rfl
@[simp] theorem freeContext_subkey :
    (freeContext s).subkey = Vector.ofFn fun i => freeWide s (9 + i.val) := rfl

end FreeValues

section Answered

variable (s : State) (a : Answer)

@[simp] theorem answered_answer : (answered s a).answer = some a := rfl
@[simp] theorem answered_degree : (answered s a).degree = s.degree := rfl
@[simp] theorem answered_ctx : (answered s a).ctx = s.ctx := rfl
@[simp] theorem answered_work : (answered s a).work = s.work := rfl
@[simp] theorem answered_t : (answered s a).t = s.t := rfl
@[simp] theorem answered_t128 : (answered s a).t128 = s.t128 := rfl
@[simp] theorem answered_nEnc : (answered s a).nEnc = s.nEnc := rfl
@[simp] theorem answered_eK : (answered s a).eK = s.eK := rfl
@[simp] theorem answered_k : (answered s a).k = s.k := rfl
@[simp] theorem answered_nonce : (answered s a).nonce = s.nonce := rfl
@[simp] theorem answered_len : (answered s a).len = s.len := rfl
@[simp] theorem answered_tagOut : (answered s a).tagOut = s.tagOut := rfl
@[simp] theorem answered_phase : (answered s a).phase = s.phase := rfl
@[simp] theorem answered_pos : (answered s a).pos = s.pos := rfl
@[simp] theorem answered_cnt : (answered s a).cnt = s.cnt := rfl
@[simp] theorem answered_idx : (answered s a).idx = s.idx := rfl
@[simp] theorem answered_ctxValid : (answered s a).ctxValid = s.ctxValid := rfl
@[simp] theorem answered_tagValid : (answered s a).tagValid = s.tagValid := rfl
@[simp] theorem answered_msg : (answered s a).msg = s.msg := rfl
@[simp] theorem answered_ports : (answered s a).ports = s.ports := rfl
@[simp] theorem answered_host : (answered s a).host = s.host := rfl
@[simp] theorem answered_unit : (answered s a).unit = s.unit := rfl
@[simp] theorem answered_freeDraws : (answered s a).freeDraws = s.freeDraws := rfl

end Answered

section Reset

variable (s : State)

@[simp] theorem hostReset_degree : (hostReset s).degree = s.degree := rfl
@[simp] theorem hostReset_phase : (hostReset s).phase = .idle := rfl
@[simp] theorem hostReset_ctxValid : (hostReset s).ctxValid = false := rfl
@[simp] theorem hostReset_tagValid : (hostReset s).tagValid = false := rfl
@[simp] theorem hostReset_ctx : (hostReset s).ctx = freeContext s := rfl
@[simp] theorem hostReset_work : (hostReset s).work = freeWorking s := rfl
@[simp] theorem hostReset_t : (hostReset s).t = freeWide s 40 := rfl
@[simp] theorem hostReset_msg : (hostReset s).msg = ⟨[]⟩ := rfl
@[simp] theorem hostReset_ports : (hostReset s).ports = s.ports := rfl
@[simp] theorem hostReset_host : (hostReset s).host = s.host := rfl
@[simp] theorem hostReset_answer : (hostReset s).answer = s.answer := rfl
@[simp] theorem hostReset_unit : (hostReset s).unit = { s.unit with sel := none } := rfl
@[simp] theorem hostReset_freeDraws : (hostReset s).freeDraws = s.freeDraws + 1 := rfl

end Reset

section Turn

variable (s : State) (rest : List HostAction)

/-- With no host action to come a step is a step of the core. -/
theorem step_of_host_nil (h : s.host = []) : step s = internalStep s := by
  simp [step, turn, h]

/-- With a host action to come a step takes it. -/
theorem step_of_host_cons (a : HostAction) (h : s.host = a :: rest) :
    step s = hostStep { s with host := rest } a := by
  simp [step, turn, h]

@[simp] theorem hostStep_pass : hostStep s .pass = internalStep s := rfl
@[simp] theorem hostStep_command (p : Ports) : hostStep s (.command p) = hostCommand s p := rfl
@[simp] theorem hostStep_readTag :
    hostStep s .readTag = .next (answered s (readAnswer .tag (readTag s))) := rfl
@[simp] theorem hostStep_readInfo (index : Nat) :
    hostStep s (.readInfo index) =
      .next (answered s (readAnswer .info (readInfo s index))) := rfl
@[simp] theorem hostStep_reset :
    hostStep s .reset = .next (answered (hostReset s) .resetDone) := rfl

end Turn

end Sys2Proof.Laws
end

