-- ==== Sys2Proof/Laws/Exec.lean ====
section
/-! SUPPORT. What each operation can answer with a next state, once and whole: provers cite these instead of
unfolding a meaning. -/

namespace Sys2Proof.Laws

open Sys2Proof.Machine

variable {s t : State}

theorem execInit_next (h : execInit s = .next t) :
    s.phase = .idle ∧
      t = { s with
            k := blockOfPort s.ports.keyIn, ctxValid := false, tagValid := false, phase := .ks,
            ctx := freeContext s, tagOut := freeBlock s 45, freeDraws := s.freeDraws + 1 } := by
  simp only [execInit] at h
  split at h
  · cases h
  · rename_i hb
    cases h
    exact ⟨by simpa [busy] using hb, rfl⟩

theorem execMac_next (h : execMac s = .next t) :
    s.phase = .idle ∧ s.ctxValid = true ∧
      t = { s with
            nonce := blockOfPort s.ports.nonceIn, len := s.ports.msgLen,
            msg := s.ports.msg.capture s.ports.msgLen s.freeDraws, tagValid := false,
            phase := .start, tagOut := freeBlock s 45, freeDraws := s.freeDraws + 1 } := by
  simp only [execMac] at h
  split at h
  · cases h
  · rename_i hb
    split at h
    · cases h
    · rename_i hc
      cases h
      exact ⟨by simpa [busy] using hb, by simpa using hc, rfl⟩

theorem execPFull_next (h : execPFull s = .next t) :
    ∃ buf, memRead s s.pos s.degree.superBytes = some buf ∧
      t = { s with
            work := roundOn s.degree s.work buf, pos := s.pos + s.degree.superBytes,
            phase := absorbPhase s.degree s.len (s.pos + s.degree.superBytes) } := by
  simp only [execPFull] at h
  split at h
  · cases h
  · rename_i buf hb
    cases h
    exact ⟨buf, hb, rfl⟩

theorem execPPad_next (h : execPPad s = .next t) :
    ∃ rest, memRead s s.pos (s.len - s.pos) = some rest ∧
      s.len - s.pos < s.degree.superBytes ∧
      t = { s with
            work := roundOn s.degree s.work (padBuffer s.degree rest), cnt := 0,
            phase := .blank } := by
  simp only [execPPad] at h
  split at h
  · cases h
  · rename_i rest hr
    split at h
    · rename_i hlt
      cases h
      exact ⟨rest, hr, hlt, rfl⟩
    · cases h

theorem execPBlank_next (h : execPBlank s = .next t) :
    (s.cnt = 3 ∧
        t = { s with work := roundBlank s.degree s.work, idx := 0, phase := .mod }) ∨
      (s.cnt ≠ 3 ∧
        t = { s with
              work := roundBlank s.degree s.work, cnt := s.cnt + 1, phase := .blank }) := by
  simp only [execPBlank] at h
  split at h
  · rename_i hc
    cases h
    exact .inl ⟨hc, rfl⟩
  · rename_i hc
    cases h
    exact .inr ⟨hc, rfl⟩

theorem execPMod_next (h : execPMod s = .next t) :
    let m := aesMod s.degree s.ctx.subkey s.idx s.work.s[s.idx.val]
    let t' := if s.idx = 0 then m else wideXor s.t m
    (s.idx = 8 ∧ t = { s with t := t', phase := .fold }) ∨
      (s.idx ≠ 8 ∧ t = { s with t := t', idx := s.idx + 1, phase := .mod }) := by
  simp only [execPMod] at h
  split at h
  · rename_i hc
    cases h
    exact .inl ⟨hc, rfl⟩
  · rename_i hc
    cases h
    exact .inr ⟨hc, rfl⟩

theorem execWload_next (h : execWload s = .next t) :
    bufferWellFormed s.degree s.unit.buf = true ∧
      t = { s with unit := { s.unit with outWide := fromBytes s.degree s.unit.buf } } := by
  simp only [execWload] at h
  split at h
  · rename_i hb
    cases h
    exact ⟨hb, rfl⟩
  · cases h

/-- A refusal comes from INIT or MAC presented at the wrong moment, from P_FULL or P_PAD outside its entry
condition, or from an ill-formed operand of WLOAD. -/
theorem exec_refused {i : Instr} {r : Refusal} (h : exec i s = .refused r) :
    (i = .init ∧ s.phase ≠ .idle ∧ r = .busy) ∨
      (i = .mac ∧ s.phase ≠ .idle ∧ r = .busy) ∨
      (i = .mac ∧ s.phase = .idle ∧ s.ctxValid = false ∧ r = .noContext) ∨
      (i = .pFull ∧ memRead s s.pos s.degree.superBytes = none ∧ r = .memReadOutside) ∨
      (i = .pPad ∧ memRead s s.pos (s.len - s.pos) = none ∧ r = .memReadOutside) ∨
      (i = .pPad ∧ s.pos + (s.len - s.pos) ≤ s.len ∧ s.degree.superBytes ≤ s.len - s.pos ∧
        r = .padTooLong) ∨
      (i = .wload ∧ bufferWellFormed s.degree s.unit.buf = false ∧ r = .operandLength) := by
  cases i with
  | init =>
    simp only [exec, execInit] at h
    split at h
    · rename_i hb
      cases h
      exact .inl ⟨rfl, by simpa [busy] using hb, rfl⟩
    · cases h
  | mac =>
    simp only [exec, execMac] at h
    split at h
    · rename_i hb
      cases h
      exact .inr (.inl ⟨rfl, by simpa [busy] using hb, rfl⟩)
    · rename_i hb
      split at h
      · rename_i hc
        cases h
        exact .inr (.inr (.inl ⟨rfl, by simpa [busy] using hb, hc, rfl⟩))
      · cases h
  | pFull =>
    simp only [exec, execPFull] at h
    split at h
    · rename_i hr
      cases h
      exact .inr (.inr (.inr (.inl ⟨rfl, hr, rfl⟩)))
    · cases h
  | pPad =>
    simp only [exec, execPPad] at h
    split at h
    · rename_i hr
      cases h
      exact .inr (.inr (.inr (.inr (.inl ⟨rfl, hr, rfl⟩))))
    · rename_i rest hr
      split at h
      · cases h
      · rename_i hl
        cases h
        refine .inr (.inr (.inr (.inr (.inr (.inl ⟨rfl, ?_, by omega, rfl⟩)))))
        by_contra hn
        simp [memRead, hn] at hr
  | pBlank => simp only [exec, execPBlank] at h; split at h <;> cases h
  | pMod => simp only [exec, execPMod] at h; split at h <;> cases h
  | wload =>
    simp only [exec, execWload] at h
    split at h
    · cases h
    · rename_i hb
      cases h
      exact .inr (.inr (.inr (.inr (.inr (.inr ⟨rfl, by simpa using hb, rfl⟩)))))
  | _ => cases h

/-- What a step of the core on its own can do: run an issued unit operation, wait in P_IDLE, or run the
operation of the phase. -/
theorem internalStep_next (h : internalStep s = .next t) :
    (∃ c i, s.unit.sel = some c ∧ decodeU3 c = .ok i ∧
        exec i { s with unit := { s.unit with sel := none } } = .next t) ∨
      (s.unit.sel = none ∧ s.phase = .idle ∧ t = s) ∨
      (s.unit.sel = none ∧ ∃ i, decodeP4 (phaseCode s.phase) = .ok i ∧ exec i s = .next t) := by
  simp only [internalStep] at h
  split at h
  · rename_i c hc
    split at h
    · rename_i i hi
      exact .inl ⟨c, i, hc, hi, h⟩
    · cases h
  · rename_i hn
    split at h
    · rename_i i hi
      exact .inr (.inr ⟨hn, i, hi, h⟩)
    · rename_i e he
      cases h
      refine .inr (.inl ⟨hn, ?_, rfl⟩)
      cases hp : s.phase <;> simp_all [phaseCode, decodeP4]

/-- What a presented command can do: be refused, its word reserved; be refused by its own checks; run. -/
theorem hostCommand_next {p : Ports} (h : hostCommand s p = .next t) :
    (decodeH p.cmd = .error .reservedCommand ∧
        t = answered s (.refused .reservedCommand)) ∨
      (∃ i r, decodeH p.cmd = .ok i ∧
        exec i { s with ports := p, answer := some .accepted } = .refused r ∧
        t = answered s (.refused r)) ∨
      ∃ i, decodeH p.cmd = .ok i ∧
        exec i { s with ports := p, answer := some .accepted } = .next t := by
  simp only [hostCommand] at h
  split at h
  · rename_i e he
    cases h
    refine .inl ⟨?_, rfl⟩
    unfold decodeH at he ⊢
    split at he <;> simp_all
  · rename_i i hi
    cases ho : exec i { s with ports := p, answer := some .accepted } with
    | next u =>
      rw [ho] at h
      cases h
      exact .inr (.inr ⟨i, hi, ho⟩)
    | fault f =>
      rw [ho] at h
      cases h
    | refused r =>
      rw [ho] at h
      cases h
      exact .inr (.inl ⟨i, r, hi, ho, rfl⟩)

/-- The two commands a command word can name. -/
theorem decodeH_ok {c : BitVec 8} {i : Instr} (h : decodeH c = .ok i) :
    (c = 0x01 ∧ i = .init) ∨ (c = 0x02 ∧ i = .mac) := by
  unfold decodeH at h
  split at h
  · rename_i hc
    cases h
    exact .inl ⟨BitVec.eq_of_toNat_eq hc, rfl⟩
  · rename_i hc
    cases h
    exact .inr ⟨BitVec.eq_of_toNat_eq hc, rfl⟩
  · cases h

/-- The operation of each phase (R64). -/
theorem decodeP4_phaseCode {p : Phase} {i : Instr} (h : decodeP4 (phaseCode p) = .ok i) :
    (p = .ks ∧ i = .pKs) ∨ (p = .start ∧ i = .pStart) ∨ (p = .full ∧ i = .pFull) ∨
      (p = .pad ∧ i = .pPad) ∨ (p = .blank ∧ i = .pBlank) ∨ (p = .mod ∧ i = .pMod) ∨
      (p = .fold ∧ i = .pFold) ∨ (p = .nonce ∧ i = .pNonce) ∨ (p = .emit ∧ i = .pEmit) := by
  cases p <;> simp_all [phaseCode, decodeP4]

/-- The code of a phase names that phase and no other. -/
@[simp] theorem phaseOfCode_phaseCode (p : Phase) : phaseOfCode (phaseCode p) = some p := by
  cases p <;> rfl

end Sys2Proof.Laws
end

