-- ==== Sys2Proof/Laws/Lanes.lean ====
section
/-! SUPPORT. Bytes of a block, and the number of lanes of every wide operation. -/

namespace Sys2Proof.Laws

open Sys2Proof.Machine

@[simp] theorem length_blockBytes (b : Block128) : (blockBytes b).length = 16 := rfl

/-- A block is recovered from its bytes. -/
@[simp] theorem blockOf_blockBytes (b : Block128) : blockOf (blockBytes b) = b := rfl

/-- Sixteen bytes are recovered from their block. -/
theorem blockBytes_blockOf {buf : List Byte} (h : buf.length = 16) :
    blockBytes (blockOf buf) = buf := by
  match buf, h with
  | [_, _, _, _, _, _, _, _, _, _, _, _, _, _, _, _], _ => rfl

theorem Block128.eq_of_bytes {a b : Block128} (h : blockBytes a = blockBytes b) : a = b := by
  rw [← blockOf_blockBytes a, h, blockOf_blockBytes]

theorem length_slice {a : List Byte} {i n : Nat} (h : i + n ≤ a.length) :
    (slice a i n).length = n := by
  simp only [slice, List.length_take, List.length_drop]; omega

theorem getElem?_slice (a : List Byte) (i n j : Nat) (h : j < n) :
    (slice a i n)[j]? = a[i + j]? := by
  simp [slice, h]

theorem Degree.lanes_pos (d : Degree) : 0 < d.lanes := by cases d <;> decide

theorem Degree.superBytes_pos (d : Degree) : 0 < d.superBytes := by cases d <;> decide

@[simp] theorem length_wideZero (d : Degree) : (wideZero d).length = d.lanes := by
  simp [wideZero]

@[simp] theorem length_wideXor (a b : Wide) :
    (wideXor a b).length = min a.length b.length := by
  simp [wideXor]

@[simp] theorem length_wideAesRound (a k : Wide) :
    (wideAesRound a k).length = min a.length k.length := by
  simp [wideAesRound]

@[simp] theorem length_fromBytes (d : Degree) (buf : List Byte) :
    (fromBytes d buf).length = d.lanes := by
  simp [fromBytes]

@[simp] theorem length_splitBlock (d : Degree) (buf : List Byte) (j : Nat) :
    (splitBlock d buf j).length = d.lanes := by
  simp [splitBlock]

@[simp] theorem length_pack (d : Degree) (c : List Block128) : (pack d c).length = d.lanes := by
  simp [pack]

@[simp] theorem length_contextBlock (d : Degree) (eK : Sched) (pos : Nat) :
    (contextBlock d eK pos).length = d.lanes := by
  simp [contextBlock]

@[simp] theorem length_freeWide (s : State) (register : Nat) :
    (freeWide s register).length = s.degree.lanes := by
  simp [freeWide]

@[simp] theorem length_toBytes (w : Wide) : (toBytes w).length = 16 * w.length := by
  induction w with
  | nil => rfl
  | cons b w ih =>
    simp only [toBytes, List.flatMap_cons, List.length_append, length_blockBytes,
      List.length_cons] at ih ⊢
    omega

/-- The keyed rounds keep the number of lanes when every subkey has it (R111). -/
theorem length_keyedRounds {d : Degree} {k : Vector Wide 18}
    (hk : ∀ i : Fin 18, WideShaped d k[i.val]) (i : Fin 9) {y : Wide} (hy : WideShaped d y) :
    WideShaped d (keyedRounds k i y) := by
  unfold keyedRounds
  generalize List.finRange 9 = l
  induction l generalizing y with
  | nil => exact hy
  | cons j l ih =>
    refine ih ?_
    have := hk ⟨i.val + (j.val + 1), by omega⟩
    simp_all [WideShaped]

/-- The modified AES keeps the number of lanes (R111). -/
theorem length_aesMod {d : Degree} {k : Vector Wide 18}
    (hk : ∀ i : Fin 18, WideShaped d k[i.val]) (i : Fin 9) {x : Wide} (hx : WideShaped d x) :
    WideShaped d (aesMod d k i x) := by
  have h0 : WideShaped d (wideXor x k[i.val]) := by
    have := hk ⟨i.val, by omega⟩
    simp_all [WideShaped]
  have := length_keyedRounds hk i h0
  simp_all [WideShaped, aesMod]

open Sys2Proof.Safety

/-- A round keeps the number of lanes of the working registers (R100). -/
theorem workingShaped_roundStep {d : Degree} {w : Working} (h : WorkingShaped d w)
    {m0 m1 m2 m3 : Wide} (h0 : WideShaped d m0) (h1 : WideShaped d m1) (h2 : WideShaped d m2)
    (h3 : WideShaped d m3) : WorkingShaped d (roundStep w m0 m1 m2 m3) := by
  obtain ⟨hb, hrr, hr0, hr1, hr2⟩ := h
  refine ⟨fun i => ?_, h2, ?_, hr0, hr1⟩
  · have b0 := hb 0
    have b1 := hb 1
    have b2 := hb 2
    have b3 := hb 3
    have b4 := hb 4
    have b5 := hb 5
    have b6 := hb 6
    have b7 := hb 7
    have b8 := hb 8
    fin_cases i <;> simp_all [roundStep, WideShaped]
  · simp_all [roundStep, WideShaped]

end Sys2Proof.Laws
end

