-- ==== Sys2Proof/Laws/Memory.lean ====
section
/-! SUPPORT. The message space: a read after a write, the canonical form kept by every memory operation,
and what a loaded and a captured space hold. -/

namespace Sys2Proof.Laws

open Sys2Proof.Machine

theorem readCells_writeCells (cells : List Host.Cell) (a a' : Nat) (b : Byte) :
    readCells (writeCells cells a b) a' = if a' = a then some b else readCells cells a' := by
  induction cells with
  | nil => simp [writeCells, readCells, eq_comm]
  | cons c cells ih =>
    obtain ⟨x, v⟩ := c
    simp only [writeCells]
    split
    · by_cases h : a' = a
      · simp [readCells, h]
      · simp [readCells, h, Ne.symm h]
    · split
      · rename_i h
        subst h
        by_cases h : a' = a
        · simp [readCells, h]
        · simp [readCells, h, Ne.symm h]
      · by_cases h : x = a'
        · subst h
          rename_i h1 h2
          simp [readCells, Ne.symm h2]
        · simp [readCells, h, ih]

/-- A read after a write (of the same offset, of another). -/
theorem Memory.read_write (m : Memory) (a a' : Nat) (b : Byte) :
    (m.write a b).read a' = if a' = a then some b else m.read a' :=
  readCells_writeCells m.cells a a' b

@[simp] theorem Memory.read_empty (a : Nat) : (⟨[]⟩ : Memory).read a = none := rfl

theorem mem_writeCells {cells : List Host.Cell} {a x : Nat} {b : Byte}
    (h : x ∈ (writeCells cells a b).map Prod.fst) : x = a ∨ x ∈ cells.map Prod.fst := by
  induction cells with
  | nil => simpa [writeCells] using h
  | cons c cells ih =>
    obtain ⟨y, v⟩ := c
    simp only [writeCells] at h
    split at h
    · simpa using h
    · split at h
      · simp only [List.map_cons, List.mem_cons] at h ⊢
        tauto
      · simp only [List.map_cons, List.mem_cons] at h ⊢
        rcases h with h | h
        · exact .inr (.inl h)
        · rcases ih h with h | h <;> tauto

theorem Memory.wf_iff (m : Memory) :
    m.wf = true ↔ (m.cells.map Prod.fst).Pairwise (· < ·) := decide_eq_true_iff

/-- A write keeps the canonical form. -/
theorem Memory.wf_write {m : Memory} (h : m.wf = true) (a : Nat) (b : Byte) :
    (m.write a b).wf = true := by
  obtain ⟨cells⟩ := m
  rw [Memory.wf_iff] at h ⊢
  simp only [Memory.write] at h ⊢
  induction cells with
  | nil => simp [writeCells]
  | cons c cells ih =>
    obtain ⟨x, v⟩ := c
    simp only [List.map_cons, List.pairwise_cons] at h
    simp only [writeCells]
    split
    · rename_i hax
      simp only [List.map_cons, List.pairwise_cons]
      refine ⟨fun y hy => ?_, h.1, h.2⟩
      rcases List.mem_cons.1 hy with hy | hy
      · omega
      · have := h.1 y hy
        omega
    · split
      · rename_i hax
        subst hax
        exact List.pairwise_cons.2 ⟨h.1, h.2⟩
      · simp only [List.map_cons, List.pairwise_cons]
        refine ⟨fun y hy => ?_, ih h.2⟩
        rcases mem_writeCells hy with hy | hy
        · omega
        · exact h.1 y hy

/-- Loading bytes keeps the canonical form. -/
theorem Memory.wf_load {m : Memory} (h : m.wf = true) (a : Nat) (bytes : List Byte) :
    (m.load a bytes).wf = true := by
  induction bytes generalizing m a with
  | nil => exact h
  | cons b bytes ih => exact ih (Memory.wf_write h a b) (a + 1)

/-- The space of a byte list is in canonical form. -/
theorem Memory.wf_ofBytes (bytes : List Byte) : (Memory.ofBytes bytes).wf = true :=
  Memory.wf_load rfl 0 bytes

/-- What a space holds after bytes were loaded from an offset on. -/
theorem Memory.read_load (m : Memory) (a x : Nat) (bytes : List Byte) :
    (m.load a bytes).read x =
      if a ≤ x ∧ x < a + bytes.length then bytes[x - a]? else m.read x := by
  induction bytes generalizing m a with
  | nil =>
    have : ¬(a ≤ x ∧ x < a + ([] : List Byte).length) := by simp
    simp [Memory.load]
  | cons b bytes ih =>
    rw [Memory.load, ih, Memory.read_write]
    simp only [List.length_cons]
    by_cases h : x = a
    · subst h
      have h1 : ¬(x + 1 ≤ x ∧ x < x + 1 + bytes.length) := by omega
      have h2 : x ≤ x ∧ x < x + (bytes.length + 1) := by omega
      simp [h2]
    · by_cases h3 : a + 1 ≤ x ∧ x < a + 1 + bytes.length
      · have h4 : a ≤ x ∧ x < a + (bytes.length + 1) := by omega
        have h5 : x - a = (x - (a + 1)) + 1 := by omega
        rw [if_pos h3, if_pos h4, h5, List.getElem?_cons_succ]
      · have h4 : ¬(a ≤ x ∧ x < a + (bytes.length + 1)) := by omega
        rw [if_neg h3, if_neg h4, if_neg h]

/-- The space of a byte list holds byte `x` of the list at offset `x`, and nothing beyond. -/
@[simp] theorem Memory.read_ofBytes (bytes : List Byte) (x : Nat) :
    (Memory.ofBytes bytes).read x = bytes[x]? := by
  rw [Memory.ofBytes, Memory.read_load]
  by_cases h : x < bytes.length
  · simp [h]
  · simp [h]

/-- `n` bytes are read from an offset on exactly when the space holds them all, and they are its bytes
there. -/
theorem Memory.readBytes_eq_some {m : Memory} {a n : Nat} {bytes : List Byte} :
    m.readBytes a n = some bytes ↔
      bytes.length = n ∧ ∀ j < n, m.read (a + j) = bytes[j]? := by
  induction n generalizing a bytes with
  | zero =>
    constructor
    · intro h
      cases h
      simp
    · rintro ⟨h, -⟩
      rw [List.length_eq_zero_iff] at h
      simp [Memory.readBytes, h]
  | succ n ih =>
    constructor
    · intro h
      rw [Memory.readBytes] at h
      split at h
      · rename_i b rest hb hrest
        cases h
        obtain ⟨hl, hr⟩ := ih.1 hrest
        refine ⟨by simp [hl], fun j hj => ?_⟩
        cases j with
        | zero => simpa using hb
        | succ j =>
          have := hr j (by omega)
          rw [List.getElem?_cons_succ, ← this]
          congr 1
          omega
      · cases h
    · rintro ⟨hl, hr⟩
      match bytes, hl with
      | b :: rest, hl =>
        have h0 : m.read a = some b := by simpa using hr 0 (by omega)
        have h1 : m.readBytes (a + 1) n = some rest := by
          refine ih.2 ⟨by simpa using hl, fun j hj => ?_⟩
          have := hr (j + 1) (by omega)
          rw [List.getElem?_cons_succ] at this
          rw [← this]
          congr 1
          omega
        rw [Memory.readBytes, h0, h1]

/-- What `MemRead` can answer (R40). -/
theorem memRead_eq_some {s : State} {a n : Nat} {bytes : List Byte} :
    memRead s a n = some bytes ↔
      a + n ≤ s.len ∧ bytes.length = n ∧ ∀ j < n, s.msg.read (a + j) = bytes[j]? := by
  rw [memRead]
  split
  · rename_i h
    simp [Memory.readBytes_eq_some, h]
  · rename_i h
    simp [h]

/-- What the captured space holds (R50, log 10). -/
theorem Memory.read_capture (m : Memory) (len draw a : Nat) :
    (m.capture len draw).read a =
      if a < len then some ((m.read a).getD (Config.freeByte draw a)) else none := by
  rw [Memory.capture, Memory.read_ofBytes]
  split
  · rename_i h
    simp [h]
  · rename_i h
    simp [h]

/-- `MemRead` answers inside a message whose every offset holds a byte (R40). -/
theorem memRead_isSome {s : State} {a n : Nat} (hc : ∀ x < s.len, (s.msg.read x).isSome)
    (h : a + n ≤ s.len) : ∃ bytes, memRead s a n = some bytes := by
  refine ⟨(List.range n).map fun j => (s.msg.read (a + j)).getD 0, ?_⟩
  rw [memRead_eq_some]
  refine ⟨h, by simp, fun j hj => ?_⟩
  obtain ⟨v, hv⟩ := Option.isSome_iff_exists.1 (hc (a + j) (by omega))
  simp [hj, hv]

end Sys2Proof.Laws
end

