-- ==== Sys2Proof/Laws/PerInstr.lean ====
section
/-! SUPPORT. Statements for all instructions, one lemma per constructor. `CodeWidth`: each operation's code
lies in the code space of its format, below the width of 30_encoding.md R63 to R65, and the table word
of that width decodes to it. -/

namespace Sys2Proof.Laws

/-- The width of a code word's format in bits, and its code as a number. -/
def codeBits : CodeWord → Nat × Nat
  | .h c => (8, c.toNat)
  | .p4 c => (4, c.toNat)
  | .u3 c => (3, c.toNat)

/-- The table word of an operation, in the width of its format, decodes to it. -/
def CodeWidth.Statement (i : Instr) : Prop :=
  (codeBits (encode i)).2 < 2 ^ (codeBits (encode i)).1 ∧
    decodeTableWord (codeBits (encode i)).1 (codeBits (encode i)).2 = some i

theorem CodeWidth.init : CodeWidth.Statement .init := ⟨by decide, rfl⟩
theorem CodeWidth.mac : CodeWidth.Statement .mac := ⟨by decide, rfl⟩
theorem CodeWidth.pKs : CodeWidth.Statement .pKs := ⟨by decide, rfl⟩
theorem CodeWidth.pStart : CodeWidth.Statement .pStart := ⟨by decide, rfl⟩
theorem CodeWidth.pFull : CodeWidth.Statement .pFull := ⟨by decide, rfl⟩
theorem CodeWidth.pPad : CodeWidth.Statement .pPad := ⟨by decide, rfl⟩
theorem CodeWidth.pBlank : CodeWidth.Statement .pBlank := ⟨by decide, rfl⟩
theorem CodeWidth.pMod : CodeWidth.Statement .pMod := ⟨by decide, rfl⟩
theorem CodeWidth.pFold : CodeWidth.Statement .pFold := ⟨by decide, rfl⟩
theorem CodeWidth.pNonce : CodeWidth.Statement .pNonce := ⟨by decide, rfl⟩
theorem CodeWidth.pEmit : CodeWidth.Statement .pEmit := ⟨by decide, rfl⟩
theorem CodeWidth.wzero : CodeWidth.Statement .wzero := ⟨by decide, rfl⟩
theorem CodeWidth.wxor : CodeWidth.Statement .wxor := ⟨by decide, rfl⟩
theorem CodeWidth.waesr : CodeWidth.Statement .waesr := ⟨by decide, rfl⟩
theorem CodeWidth.wload : CodeWidth.Statement .wload := ⟨by decide, rfl⟩
theorem CodeWidth.wstore : CodeWidth.Statement .wstore := ⟨by decide, rfl⟩
theorem CodeWidth.keyexp : CodeWidth.Statement .keyexp := ⟨by decide, rfl⟩
theorem CodeWidth.aesenc : CodeWidth.Statement .aesenc := ⟨by decide, rfl⟩

end Sys2Proof.Laws
end

