-- ==== Sys2Proof/Tests/Slice0.lean ====
section
/-! SUPPORT. Tests: the codes written out from spec/30_encoding.md, an ill-formed term for each check, one
step per test with the expected values of spec/95_test_vectors.md and spec/97_wide_vectors.md (none is the
model's own answer), and for each obligation with hypotheses a state that meets them. -/

set_option Elab.async false

namespace Sys2Proof.Tests

open Sys2Proof.Machine Sys2Proof.Safety

/-! ### Codes (30_encoding.md sections 3 to 5) -/

theorem test_decode_init : decode (.h 0b00000001#8) = .ok .init := by decide
theorem test_decode_mac : decode (.h 0b00000010#8) = .ok .mac := by decide
theorem test_decode_pKs : decode (.p4 0b0001#4) = .ok .pKs := by decide
theorem test_decode_pStart : decode (.p4 0b0010#4) = .ok .pStart := by decide
theorem test_decode_pFull : decode (.p4 0b0011#4) = .ok .pFull := by decide
theorem test_decode_pPad : decode (.p4 0b0100#4) = .ok .pPad := by decide
theorem test_decode_pBlank : decode (.p4 0b0101#4) = .ok .pBlank := by decide
theorem test_decode_pMod : decode (.p4 0b0110#4) = .ok .pMod := by decide
theorem test_decode_pFold : decode (.p4 0b0111#4) = .ok .pFold := by decide
theorem test_decode_pNonce : decode (.p4 0b1000#4) = .ok .pNonce := by decide
theorem test_decode_pEmit : decode (.p4 0b1001#4) = .ok .pEmit := by decide
theorem test_decode_wzero : decode (.u3 0b000#3) = .ok .wzero := by decide
theorem test_decode_wxor : decode (.u3 0b001#3) = .ok .wxor := by decide
theorem test_decode_waesr : decode (.u3 0b010#3) = .ok .waesr := by decide
theorem test_decode_wload : decode (.u3 0b011#3) = .ok .wload := by decide
theorem test_decode_wstore : decode (.u3 0b100#3) = .ok .wstore := by decide
theorem test_decode_keyexp : decode (.u3 0b101#3) = .ok .keyexp := by decide
theorem test_decode_aesenc : decode (.u3 0b110#3) = .ok .aesenc := by decide


/-! ### What the checks refuse -/

theorem test_h_reserved_is_ill_formed :
    CodeWord.wellFormed (.h 0b00000000#8) = false ∧
      CodeWord.wellFormed (.h 0b00000011#8) = false ∧
      decode (.h 0b00000011#8) = .error .reservedCommand := by decide

theorem test_p4_waiting_and_reserved_are_ill_formed :
    CodeWord.wellFormed (.p4 0b0000#4) = false ∧ CodeWord.wellFormed (.p4 0b1010#4) = false ∧
      decode (.p4 0b1010#4) = .error .reservedPhase := by decide

theorem test_u3_reserved_is_ill_formed :
    CodeWord.wellFormed (.u3 0b111#3) = false ∧ decode (.u3 0b111#3) = .error .reservedUnit := by
  decide

theorem test_wide_of_wrong_lanes_is_ill_formed : ¬WideShaped .x2 [Block128.zero] := by decide

theorem test_buffer_of_wrong_length_is_ill_formed :
    bufferWellFormed .x1 (List.replicate 15 0) = false ∧
      bufferWellFormed .x1 (List.replicate 17 0) = false ∧
      bufferWellFormed .x1 (List.replicate 16 0) = true := by decide

theorem test_memory_out_of_order_is_ill_formed :
    (⟨[(1, 0), (0, 0)]⟩ : Memory).wf = false ∧ (⟨[(1, 0), (1, 0)]⟩ : Memory).wf = false ∧
      (⟨[(0, 0), (1, 0)]⟩ : Memory).wf = true := by decide

theorem test_table_words :
    decodeTableWord 8 0x09 = some .pEmit ∧ decodeTableWord 4 0x1 = some .pKs ∧
      decodeTableWord 3 0b001 = some .wxor ∧ decodeTableWord 8 0x0a = none ∧
      decodeTableWord 3 0b111 = none := by decide

/-! ### Helpers -/

/-- A block from its bytes as the spec prints them, byte 0 first. -/
def blk (v : Nat) : Block128 :=
  blockOf ((List.range 16).map fun i => BitVec.ofNat 8 (v / 256 ^ (15 - i)))

/-- The bytes 0, 1, ..., n - 1. -/
def countBytes (n : Nat) : List Byte := (List.range n).map (BitVec.ofNat 8)

/-- What a next state has in a field. -/
def after {α : Type} (field : State → α) : Host.Outcome State Fault Refusal → Option α
  | .next t => some (field t)
  | .fault _ => none
  | .refused _ => none

/-- Why an outcome is a refusal. -/
def refusal : Host.Outcome State Fault Refusal → Option Refusal
  | .refused r => some r
  | .next _ => none
  | .fault _ => none

/-- Why an outcome is a fault. -/
def faultOf : Host.Outcome State Fault Refusal → Option Fault
  | .fault f => some f
  | .next _ => none
  | .refused _ => none

/-- The key and nonce of the document's third vector. -/
def countKey : Block128 := blk 0x000102030405060708090a0b0c0d0e0f

/-- The context of the zero key, D = 1; `test_p_ks_zero_key` compares it with 4.2. -/
def zeroContext : Context := contextOf .x1 .zero

/-- A state right after P_START of a MAC with `m`, D = 1. -/
def started (c : Context) (m : List Byte) (phase : Phase) : State :=
  { State.reset with
    ctx := c, ctxValid := true, work := workingStart .x1 c.initState, msg := Memory.ofBytes m,
    len := m.length, phase := phase }

/-- A round unit with operands `a` and `b` on its wires. -/
def withOperands (d : Degree) (a b : Wide) : State :=
  { State.resetFor d with unit := { (State.resetFor d).unit with a := a, b := b } }

/-! ### Building blocks (95_test_vectors.md section 2) -/

theorem test_aes_building_blocks :
    subBytes countKey = blk 0x637c777bf26b6fc53001672bfed7ab76 ∧
      shiftRows countKey = blk 0x00050a0f04090e03080d02070c01060b ∧
      mixColumns (blk 0xdb135345f20a225c01010101c6c6c6c6) =
        blk 0x8e4da1bc9fdc589d01010101c6c6c6c6 := by decide +kernel

theorem test_gf_products :
    gfMul 0x57 0x83 = 0xc1 ∧ gfMul 0x57 0x13 = 0xfe ∧ gfMul 0xff 0x03 = 0x1a ∧
      gfMul 0x80 0x02 = 0x1b := by decide +kernel

theorem test_aes_last :
    aesLast (blk 0x193de3bea0f4e22b9ac68d2ae9f84808)
        (blk 0xa0fafe1788542cb123a339392a6c7605) =
      blk 0x7445a32768e07e1f9be228c8344beee0 := by decide +kernel

/-- 95_test_vectors.md section 4.1. -/
theorem test_ksin :
    ksin .x1 26 0 = blk 0x1a000000000000000000000000000000 ∧
      ksin .x2 0 1 = blk 0x00000000000000000000000000000101 ∧
      ksin .x4 9 2 = blk 0x09000000000000000000000000000203 ∧
      le128 28 = blk 0x1c000000000000000000000000000000 := by decide +kernel

/-- 95_test_vectors.md section 6.3: D = 1, L = 16 and L = 63. -/
theorem test_padded_superblocks :
    padBuffer .x1 (countBytes 16) = countBytes 16 ++ 0x01 :: List.replicate 47 0x00 ∧
      padBuffer .x1 (countBytes 63) = countBytes 63 ++ [0x01] := by decide +kernel

/-! ### Unit operations -/

theorem test_wzero :
    after (·.unit.outWide)
        (exec .wzero (withOperands .x2 [countKey, countKey] [countKey, countKey])) =
      some [Block128.zero, Block128.zero] := by decide +kernel

/-- Section 2.3. -/
theorem test_wxor :
    after (·.unit.outWide)
        (exec .wxor (withOperands .x1 [blk 0x00112233445566778899aabbccddeeff]
          [blk 0x0f0e0d0c0b0a09080706050403020100])) =
      some [blk 0x0f1f2f3f4f5f6f7f8f9fafbfcfdfefff] := by decide +kernel

/-- Section 2.4, D = 2. -/
theorem test_waesr_lanes :
    after (·.unit.outWide)
        (exec .waesr (withOperands .x2
          [Block128.zero, blk 0x193de3bea0f4e22b9ac68d2ae9f84808]
          [Block128.zero, blk 0xa0fafe1788542cb123a339392a6c7605])) =
      some [blk 0x63636363636363636363636363636363,
        blk 0xa49c7ff2689f352b6b5bea43026a5049] := by decide +kernel

/-- Section 2.3: the key is the second operand. -/
theorem test_waesr_key :
    after (·.unit.outWide)
        (exec .waesr (withOperands .x1 [Block128.zero]
          [blk 0x00112233445566778899aabbccddeeff])) =
      some [blk 0x6372415027360514ebfac9d8afbe8d9c] := by decide +kernel

/-- Section 2.1's byte string, in two lanes. -/
theorem test_wload :
    after (·.unit.outWide)
        (exec .wload { State.resetFor .x2 with
          unit := { (State.resetFor .x2).unit with buf := countBytes 32 } }) =
      some [countKey, blk 0x101112131415161718191a1b1c1d1e1f] := by decide +kernel

theorem test_wload_of_wrong_length :
    refusal (exec .wload { State.resetFor .x2 with
        unit := { (State.resetFor .x2).unit with buf := countBytes 31 } }) =
      some .operandLength := by decide +kernel

theorem test_wstore :
    after (·.unit.outBuf)
        (exec .wstore (withOperands .x2
          [countKey, blk 0x101112131415161718191a1b1c1d1e1f] [])) =
      some (countBytes 32) := by decide +kernel

/-- Section 3.2. -/
theorem test_keyexp :
    after (fun t => (t.unit.outSched[0], t.unit.outSched[1], t.unit.outSched[10]))
        (exec .keyexp { State.reset with
          unit := { State.reset.unit with blk := blk 0x2b7e151628aed2a6abf7158809cf4f3c } }) =
      some (blk 0x2b7e151628aed2a6abf7158809cf4f3c, blk 0xa0fafe1788542cb123a339392a6c7605,
        blk 0xd014f9a8c9ee2589e13f0cc8b6630ca6) := by decide +kernel

/-- Section 3.4, the first row. -/
theorem test_aesenc :
    after (·.unit.outBlk)
        (exec .aesenc { State.reset with
          unit := { State.reset.unit with
            sched := keyExpand (blk 0x2b7e151628aed2a6abf7158809cf4f3c)
            blk := blk 0x3243f6a8885a308d313198a2e0370734 } }) =
      some (blk 0x3925841d02dc09fbdc118597196a0b32) := by decide +kernel

/-! ### Commands -/

/-- 11.2 line 7: the key port carries byte 0 in its low byte. -/
theorem test_init_accepted :
    after (fun t => (t.phase, t.ctxValid, t.tagValid, t.k, t.answer))
        (step { State.reset with
          ctxValid := true, tagValid := true
          host := [.command { State.reset.ports with
            cmd := 0x01, keyIn := 0x0f0e0d0c0b0a09080706050403020100 }] }) =
      some (.ks, false, false, countKey, some .accepted) := by decide +kernel

/-- 11.5: INIT presented while busy. -/
theorem test_init_busy :
    refusal (exec .init { State.reset with phase := .blank }) = some .busy := by decide +kernel

theorem test_mac_accepted :
    after (fun t => ((t.phase, t.tagValid, t.nonce), t.len, t.msg.read 2, t.msg.read 3))
        (exec .mac { State.reset with
          ctxValid := true, tagValid := true
          ports := { State.reset.ports with
            nonceIn := 0x0f0e0d0c0b0a09080706050403020100, msgLen := 3
            msg := Memory.ofBytes (countBytes 5) } }) =
      some ((.start, false, countKey), 3, some 2, none) := by decide +kernel

/-- 11.2 line 3: the refusal is an answer and the machine goes on. -/
theorem test_mac_without_context :
    after (fun t => (t.phase, t.answer))
        (step { State.reset with host := [.command { State.reset.ports with cmd := 0x02 }] }) =
      some (.idle, some (.refused .noContext)) := by decide +kernel

/-! ### Phases (95_test_vectors.md sections 4 to 6, 97_wide_vectors.md) -/

/-- Section 4.2. -/
theorem test_p_ks_zero_key :
    after (fun t => (t.phase, t.ctxValid, t.ctx.initState[0], t.ctx.subkey[17],
          t.ctx.nonceKey[10], t.ctx.finalKey[10]))
        (exec .pKs { State.reset with phase := .ks }) =
      some (.idle, true, [blk 0x66e94bd4ef8a2c3b884cfa59ca342b2e],
        [blk 0x4b928b907f39f48bca224c7d2084e59f], blk 0x6ff1403fb33dbf48ce4df2d9438357bd,
        blk 0x68d2573ef2fd87018945bc7a7f69964d) := by decide +kernel

/-- Section 4.1, D = 4: lane 0 and lane 3 of position 0, lane 3 of position 26. -/
theorem test_p_ks_lanes :
    after (fun t => (t.ctx.initState[0][0]?, t.ctx.initState[0][3]?, t.ctx.subkey[17][3]?))
        (exec .pKs { State.resetFor .x4 with phase := .ks }) =
      some (some (blk 0xf795aaab494b5923f7fd89ff948bc1e0),
        some (blk 0x953f3702a1ad336490599b1f963faf0a),
        some (blk 0x8f393dbc2d822be9405e86e3dcad33fa)) := by decide +kernel

/-- Sections 5 and 6.2: a MAC of 16 bytes goes to P_PAD, one of 65 bytes to P_FULL. -/
theorem test_p_start :
    after (fun t => (t.phase, t.pos, t.work.s[8], t.work.rr))
        (exec .pStart { started zeroContext (countBytes 16) .start with pos := 5 }) =
      some (.pad, 0, [blk 0x64e82b50e501fbd7dd4116921159b83e], [Block128.zero]) ∧
    after (·.phase) (exec .pStart (started zeroContext (countBytes 65) .start)) =
      some .full := by decide +kernel

/-- Section 6.2, round 1. -/
theorem test_p_full :
    after (fun t => (t.phase, t.pos, [t.work.s[0], t.work.s[1], t.work.s[3], t.work.s[8],
          t.work.rr, t.work.r0]))
        (exec .pFull (started (contextOf .x1 countKey) (countBytes 65) .full)) =
      some (.pad, 64, [[blk 0x218fdf3f6a1a3831f22902cba900b982],
        [blk 0x6cc12cfc7608d2c4a17490f49d8aa92d], [blk 0xdaaf69be2329ecc557be46eb76017320],
        [blk 0xe2643216c389e177c5e0a6fbd520d1a4], [blk 0x202122232425262728292a2b2c2d2e2f],
        [blk 0x101112131415161718191a1b1c1d1e1f]]) := by decide +kernel

/-- 20_memory.md R40: outside the message there is no read. -/
theorem test_p_full_outside :
    refusal (exec .pFull (started zeroContext (countBytes 63) .full)) =
      some .memReadOutside := by decide +kernel

/-- Section 5, round 1. -/
theorem test_p_pad :
    after (fun t => (t.phase, t.cnt, [t.work.s[0], t.work.s[4], t.work.s[6], t.work.s[7],
          t.work.r0]))
        (exec .pPad (started zeroContext (List.replicate 16 0) .pad)) =
      some (.blank, 0, [[blk 0x020160840a8bd7ec550deccbdb6d9310],
        [blk 0xd533e042eff77e1febf6770759706deb], [blk 0x12864059ce2df0b8b1f78f7ddaed2715],
        [blk 0x6b5dffbf2dfc7beb965d54bfb5bf1628],
        [blk 0x01000000000000000000000000000000]]) := by decide +kernel

theorem test_p_pad_outside :
    refusal (exec .pPad (started zeroContext (List.replicate 64 0) .pad)) =
      some .padTooLong := by decide +kernel

/-- Section 6.2, after round 2. -/
def afterRound2 : Working :=
  { s := #v[[blk 0xc3ebed29a993d94637c9a4307c206826], [blk 0x782884efd3dc941ff5319fe830238f24],
      [blk 0x4848d30bbed9dc728b418a613ed58d4a], [blk 0xe1c8d1add4174f8821f913a1666605f4],
      [blk 0xf75e84738445640c6d153f3fdc6ae636], [blk 0x5fb28765d2d4ac69aae728f86e902a95],
      [blk 0xf242d71e599b0d3d725c604e464e37c7], [blk 0x7ffe9be75c2301d938cbb168b27e6a19],
      [blk 0xdc6118e9d9cb406b576c95940f19cad2]]
    rr := [Block128.zero]
    r0 := [blk 0x202122232425262728292a2b2c2d2e2f]
    r1 := [blk 0x101112131415161718191a1b1c1d1e1f]
    r2 := [Block128.zero] }

/-- Section 6.2, round 3, and the count. -/
theorem test_p_blank :
    after (fun t => (t.phase, t.cnt, [t.work.s[0], t.work.s[3], t.work.s[8], t.work.r0,
          t.work.r1, t.work.r2]))
        (exec .pBlank { State.reset with phase := .blank, cnt := 0, work := afterRound2 }) =
      some (.blank, 1, [[blk 0x1f8af5c07058992d60a531a47339a2f4],
        [blk 0x437de819bb6afc7641c828b9fc75c3c3], [blk 0xc909183023e6f6f021f38384819bbb14],
        [Block128.zero], [blk 0x202122232425262728292a2b2c2d2e2f],
        [blk 0x101112131415161718191a1b1c1d1e1f]]) ∧
    after (fun t => (t.phase, t.idx))
        (exec .pBlank { State.reset with phase := .blank, cnt := 3, idx := 5 }) =
      some (.mod, 0) := by decide +kernel

/-- Section 5.1. -/
theorem test_p_mod_first :
    after (fun t => (t.phase, t.idx, t.t))
        (exec .pMod { started zeroContext [] .mod with
          t := [countKey]
          work := { afterRound2 with
            s := Vector.replicate 9 [blk 0xadde3eb122003a37e903ee05a2f59dad] } }) =
      some (.mod, 1, [blk 0x6ada8e1c0370d736bacdf0f1b39c3ec2]) := by decide +kernel

/-- Section 5, AESMOD(i = 8) on the last `S[8]`, added to a zero T. -/
theorem test_p_mod_last :
    after (fun t => (t.phase, t.t))
        (exec .pMod { started zeroContext [] .mod with
          idx := 8, t := [blk 0xffffffffffffffffffffffffffffffff]
          work := { afterRound2 with
            s := Vector.replicate 9 [blk 0x49d3d7b7e435fe0b215c2d483b833fe6] } }) =
      some (.fold, [(blk 0xffffffffffffffffffffffffffffffff).xor
        (blk 0x7f428968d9d1e6cfcafacf00e1b9e232)]) := by decide +kernel

/-- 97_wide_vectors.md sections 3 and 4, P_FOLD for D = 2 and D = 4. -/
theorem test_p_fold :
    after (fun t => (t.phase, t.t128))
        (exec .pFold { State.resetFor .x2 with
          phase := .fold
          t := [blk 0xc8e4dbd1e7fcc346741978ea04651339,
            blk 0x975b587e6d7958b7e28e8e8bc0928d37] }) =
      some (.nonce, blk 0x5fbf83af8a859bf19697f661c4f79e0e) ∧
    after (·.t128)
        (exec .pFold { State.resetFor .x4 with
          phase := .fold
          t := [blk 0x7d3011bcd35a4c482a2944c781251f7a, blk 0x4b7eb0cae8a9cec9f3af5adb47ac8cc4,
            blk 0x8ccbca726f4bf09cf0543e670447fab7,
            blk 0x03bc6afa5a0d5c333680030c4f7c5920] }) =
      some (blk 0xb93901fe0eb52e2e1f5223778db23029) := by decide +kernel

/-- Sections 5 and 6.2. -/
theorem test_p_nonce :
    after (fun t => (t.phase, t.nEnc, t.t128))
        (exec .pNonce { started (contextOf .x1 countKey) [] .nonce with
          nonce := countKey, t128 := blk 0x3f05d462894f7572b2d3852a95501200 }) =
      some (.emit, blk 0x7a4ac5786b08f093defb5e79dec341e3,
        blk 0x454e1319e64283e66421d158479e5dec) := by decide +kernel

/-- Section 5: the document's first tag. -/
theorem test_p_emit :
    after (fun t => (t.phase, t.tagValid, t.ctxValid, t.tagOut, readTag t))
        (exec .pEmit { started zeroContext [] .emit with
          t128 := blk 0x0f4e4c71bfa48d2026bc0e8a44102e88 }) =
      some (.idle, true, true, blk 0x26fa471b77facc73ec2f9b50bb1af864,
        .ok 0x64f81abb509b2fec73ccfa771b47fa26) := by decide +kernel

/-! ### Reads, reset, unit dispatch -/

/-- 11.3 lines 2 and 3, 11.2 line 11. -/
theorem test_information_bank :
    readInfo (State.resetFor .x2) 3 = .ok 2 ∧ readInfo (State.resetFor .x2) 4 = .ok 128 ∧
      readInfo { State.reset with phase := .blank, ctxValid := true } 5 = .ok 0b011 ∧
      readInfo { State.reset with tagValid := true, ctxValid := true } 5 = .ok 0b101 ∧
      readInfo State.reset 6 = .error .noSuchRegister := by decide +kernel

/-- 11.6: reset in the middle of a MAC. -/
theorem test_reset_in_a_mac :
    after (fun t => (t.phase, t.ctxValid, t.tagValid))
        (step { started zeroContext [] .blank with host := [.reset] }) =
      some (.idle, false, false) := by decide +kernel

/-- An operation issued to the round unit runs before the phase. -/
theorem test_unit_operation_is_a_step :
    after (fun t => (t.unit.sel, t.phase, t.unit.outWide))
        (step (State.withFetchWord { State.reset with
          unit := { State.reset.unit with a := [countKey], b := [countKey] } } 3 0b001)) =
      some (none, .idle, [Block128.zero]) := by decide +kernel

theorem test_reserved_unit_code :
    faultOf (step { State.reset with unit := { State.reset.unit with sel := some 0b111 } }) =
      some .reservedUnitCode := by decide +kernel


/-! ### Witnesses: a state that meets the hypotheses of each obligation that has any -/

/-- A core in `phase` of a MAC of `m`, D = 1, `POS` at `pos`. -/
def inPhase (phase : Phase) (m : List Byte) (pos : Nat) : State :=
  { State.reset with
    phase := phase, ctxValid := phase != .ks, msg := Memory.ofBytes m, len := m.length,
    pos := pos }

theorem reset_context : ContextShaped .x1 State.reset.ctx := ⟨by decide, by decide⟩

theorem reset_working : WorkingShaped .x1 State.reset.work :=
  ⟨by decide, rfl, rfl, rfl, rfl⟩

theorem reset_unit : UnitShaped .x1 State.reset.unit :=
  ⟨by decide, rfl, rfl, rfl, rfl, rfl⟩

/-- Such a core is safe when the entry condition of its phase holds. -/
theorem inPhase_safe {phase : Phase} {m : List Byte} {pos : Nat}
    (hm : (Memory.ofBytes m).wf = true) (h : EntryCondition (inPhase phase m pos)) :
    SafeState (inPhase phase m pos) where
  context := reset_context
  working := reset_working
  sum := rfl
  unit := reset_unit
  captured := hm
  presented := rfl
  coming := fun _ hp => by cases hp
  entry := h
  tag := fun _ => rfl

/-- A message of 64 bytes is captured. -/
theorem inPhase_captured (phase : Phase) (pos : Nat) :
    MessageCaptured (inPhase phase (countBytes 64) pos) := by
  have h : ∀ a < 64, ((Memory.ofBytes (countBytes 64)).read a).isSome = true := by
    decide +kernel
  exact h

/-- The message of 64 bytes is in canonical form. -/
theorem countBytes_wf : (Memory.ofBytes (countBytes 64)).wf = true := by decide +kernel

theorem witness_full_is_safe : SafeState (inPhase .full (countBytes 64) 0) :=
  inPhase_safe countBytes_wf ⟨rfl, inPhase_captured _ _, ⟨0, rfl⟩, by decide⟩

theorem witness_pad_is_safe : SafeState (inPhase .pad (countBytes 64) 64) :=
  inPhase_safe countBytes_wf
    ⟨rfl, inPhase_captured _ _, ⟨1, rfl⟩, by decide, by decide⟩

theorem witness_waiting : Waiting State.reset := ⟨rfl, rfl⟩

/-- A core that waits and holds the context of the zero key. -/
def ready : State := { State.reset with ctx := zeroContext, ctxValid := true }

/-- A state with a host action to come. -/
def facing (s : State) (a : HostAction) : State := { s with host := [a] }

/-- A presented command word. -/
def word (c : BitVec 8) : Ports := { State.reset.ports with cmd := c }

theorem witness_codesDecodeToTheirOperation : decode (.u3 0b110#3) = .ok .aesenc := rfl

theorem witness_reservedCodesNameNoOperation :
    (0x00#8 ≠ 0x01 ∧ 0x00#8 ≠ 0x02) ∧ (0x03#8 ≠ 0x01 ∧ 0x03#8 ≠ 0x02) ∧
      10 ≤ (0xa#4).toNat ∧ 10 ≤ (0xf#4).toNat := by decide

theorem witness_stepRunsTheDecodedOperation_phase :
    (inPhase .ks [] 0).unit.sel = none ∧
      decode (.p4 (phaseCode (inPhase .ks [] 0).phase)) = .ok .pKs ∧
      (inPhase .ks [] 0).host = [] ∧ (facing (inPhase .ks [] 0) .pass).host = [.pass] :=
  ⟨rfl, rfl, rfl, rfl⟩

theorem witness_stepRunsTheDecodedOperation_unit :
    (State.reset.withFetchWord 3 0b000).unit.sel = some 0b000 ∧
      decode (.u3 0b000) = .ok .wzero ∧ (State.reset.withFetchWord 3 0b000).host = [.pass] ∧
      ({ State.reset with unit := { State.reset.unit with sel := some 0b000 } } : State).host =
        [] := ⟨rfl, rfl, rfl, rfl⟩

theorem witness_stepRunsTheDecodedOperation_command :
    (facing State.reset (.command (word 0x01))).host = [.command (word 0x01)] ∧
      decode (.h (word 0x01).cmd) = .ok .init ∧ decode (.h (word 0x02).cmd) = .ok .mac ∧
      (∃ t, exec .init { State.reset with
        host := [], ports := word 0x01, answer := some .accepted } = .next t) ∧
      exec .mac { State.reset with
        host := [], ports := word 0x02, answer := some .accepted } = .refused .noContext :=
  ⟨rfl, rfl, rfl, ⟨_, rfl⟩, rfl⟩

theorem witness_idleCoreWaits :
    Waiting State.reset ∧ State.reset.host = [] ∧ Waiting (facing State.reset .pass) ∧
      (facing State.reset .pass).host = [.pass] := ⟨⟨rfl, rfl⟩, rfl, ⟨rfl, rfl⟩, rfl⟩

/-- The other phases and boundary values of the table: a start with LEN = SB and with LEN = SB - 1, the
counters at 2, 3, 7 and 8. -/
theorem witness_phasesFollowTheTransitionTable :
    SafeState (inPhase .idle [] 0) ∧ SafeState (inPhase .ks [] 0) ∧
      SafeState (inPhase .start (countBytes 64) 0) ∧ SafeState (inPhase .start [] 0) ∧
      SafeState { inPhase .blank [] 0 with cnt := 2 } ∧
      SafeState { inPhase .blank [] 0 with cnt := 3 } ∧
      SafeState { inPhase .mod [] 0 with idx := 7 } ∧
      SafeState { inPhase .mod [] 0 with idx := 8 } ∧
      SafeState (inPhase .fold [] 0) ∧ SafeState (inPhase .nonce [] 0) ∧
      SafeState (inPhase .emit [] 0) ∧ (inPhase .emit [] 0).host = [] ∧
      (inPhase .emit [] 0).unit.sel = none := by
  have tail : ∀ phase, AtTail (inPhase phase [] 0) := fun _ => ⟨⟨0, rfl⟩, Nat.le_refl 0, (by decide : 0 < 64)⟩
  have empty : ∀ phase, MessageCaptured (inPhase phase [] 0) := fun _ a ha => by cases ha
  have blank := inPhase_safe (phase := .blank) (pos := 0) rfl ⟨rfl, tail _⟩
  have mod := inPhase_safe (phase := .mod) (pos := 0) rfl ⟨rfl, tail _⟩
  exact ⟨inPhase_safe rfl trivial, inPhase_safe rfl rfl,
    inPhase_safe countBytes_wf ⟨rfl, inPhase_captured _ _⟩, inPhase_safe rfl ⟨rfl, empty _⟩,
    ⟨blank.1, blank.2, blank.3, blank.4, blank.5, blank.6, blank.7, ⟨rfl, tail .blank⟩, blank.9⟩,
    ⟨blank.1, blank.2, blank.3, blank.4, blank.5, blank.6, blank.7, ⟨rfl, tail .blank⟩, blank.9⟩,
    ⟨mod.1, mod.2, mod.3, mod.4, mod.5, mod.6, mod.7, ⟨rfl, tail .mod⟩, mod.9⟩,
    ⟨mod.1, mod.2, mod.3, mod.4, mod.5, mod.6, mod.7, ⟨rfl, tail .mod⟩, mod.9⟩,
    inPhase_safe rfl ⟨rfl, tail _⟩, inPhase_safe rfl ⟨rfl, tail _⟩,
    inPhase_safe rfl ⟨rfl, tail _⟩, rfl, rfl⟩

/-- The two full cases of the table: 64 bytes left after the step, and none. -/
theorem witness_phasesFollowTheTransitionTable_full :
    after (fun t => t.len - t.pos) (step (inPhase .full (countBytes 64) 0)) = some 0 ∧
      after (fun t => t.len - t.pos) (step (inPhase .full (countBytes 128) 0)) = some 64 := by
  decide +kernel

theorem witness_resetAbandonsEverything :
    (facing (inPhase .blank [] 0) .reset).host = .reset :: [] := rfl

theorem witness_informationBank : 6 ≤ 6 := by decide

theorem witness_readsAnswerAndChangeNothing :
    (facing { ready with tagValid := true } .readTag).host = [.readTag] ∧
      (facing { ready with tagValid := true } .readTag).tagValid = true ∧
      (facing ready (.readInfo 5)).host = [.readInfo 5] ∧ readInfo (facing ready (.readInfo 5)) 5 = .ok 1 :=
  ⟨rfl, rfl, rfl, by decide +kernel⟩

theorem witness_refusedActionsChangeNothing :
    ((word 0x03).cmd ≠ 0x01 ∧ (word 0x03).cmd ≠ 0x02) ∧ (inPhase .blank [] 0).phase ≠ .idle ∧
      (State.reset.phase = .idle ∧ State.reset.ctxValid = false) ∧
      State.reset.tagValid = false ∧ (facing State.reset (.readInfo 6)).host = [.readInfo 6] ∧
      ∃ t, step (facing State.reset .readTag) = .next t ∧
        t.answer = some (.refused .tagNotValid) :=
  ⟨by decide, by decide, ⟨rfl, rfl⟩, rfl, rfl, ⟨_, rfl, rfl⟩⟩

theorem witness_readsRevealOnlyStatusAndTag :
    ready.degree = { ready with k := countKey, tagOut := countKey : State }.degree ∧
      ready.tagValid = { ready with k := countKey, tagOut := countKey : State }.tagValid ∧
      (ready.tagValid = true → ready.tagOut = countKey) ∧
      ready ≠ { ready with k := countKey, tagOut := countKey } :=
  ⟨rfl, rfl, (fun h => by cases h), fun h =>
    absurd (congrArg State.k h : Block128.zero = countKey) (by decide +kernel)⟩

theorem witness_portsCarryByteIAtBit8I :
    (blockBytes countKey)[15]? = some 0x0f ∧ 15 < 16 := by decide +kernel

theorem witness_keyScheduleInputLayout :
    26 ≤ 26 ∧ 3 < Degree.lanes .x4 ∧ 0 < Degree.lanes .x1 := by decide

theorem witness_paddedSuperblockLayout :
    (countBytes 63).length < 64 * Degree.lanes .x1 ∧
      ([] : List Byte).length < 64 * Degree.lanes .x1 ∧ 62 < (countBytes 63).length ∧
      ([] : List Byte).length < 63 := by decide

theorem witness_memReadReturnsTheMessageBytes :
    MessageCaptured (inPhase .full (countBytes 64) 0) ∧
      63 + 1 ≤ (inPhase .full (countBytes 64) 0).len ∧
      64 ≤ (inPhase .full (countBytes 64) 0).len ∧
      (inPhase .full (countBytes 64) 0).len < 64 + 1 ∧
      SafeState (inPhase .full (countBytes 64) 0) ∧
      SafeState (inPhase .pad (countBytes 64) 64) :=
  ⟨inPhase_captured _ _, by decide, by decide, by decide, witness_full_is_safe,
    witness_pad_is_safe⟩

theorem witness_captureTakesTheSuppliedBytes :
    0 < 2 ∧ ((Memory.ofBytes [0x01]).read 0).isSome = true ∧ 1 < 2 ∧
      (Memory.ofBytes [0x01]).read 1 = none ∧ 2 ≤ 2 := by decide

theorem witness_paddingIsInjective : superblocks .x1 [0x00] = superblocks .x1 [0x00] := rfl

theorem witness_sboxIsTheAffineImageOfTheInverse :
    (0x02 : Byte) ≠ 0 ∧ gfMul 0x02 0x8d = 1 ∧
      (((0x00 : Byte) = 0 → (0x00 : Byte) = 0) ∧
        ((0x00 : Byte) ≠ 0 → gfMul 0x00 0x00 = 1)) := by decide +kernel

theorem witness_shiftRowsRotatesRows : 3 < 4 := by decide

theorem witness_mixColumnsFormula :
    3 < 4 ∧ (blockBytes countKey)[4 * 3]? = some 0x0c ∧
      (blockBytes countKey)[4 * 3 + 1]? = some 0x0d ∧
      (blockBytes countKey)[4 * 3 + 2]? = some 0x0e ∧
      (blockBytes countKey)[4 * 3 + 3]? = some 0x0f := by decide +kernel

/-- Operands of WideOperationsAreLanewise, WxorIsBytewise and RoundKeyIsXoredLast, at the last lane. -/
theorem witness_wideOperands :
    WideShaped .x2 [countKey, Block128.zero] ∧ WideShaped .x2 [Block128.zero, countKey] ∧
      [countKey, Block128.zero][1]? = some Block128.zero ∧
      [Block128.zero, countKey][1]? = some countKey := ⟨rfl, rfl, rfl, rfl⟩

theorem witness_aesRoundIsABijection :
    WideShaped .x1 [countKey] ∧ wideAesRound [countKey] [countKey] =
      wideAesRound [countKey] [countKey] := ⟨rfl, rfl⟩

theorem witness_loadAndStoreAreInverse :
    (countBytes 32).length = 16 * Degree.lanes .x2 ∧ 1 < Degree.lanes .x2 ∧ 15 < 16 ∧
      WideShaped .x2 [countKey, Block128.zero] := ⟨by decide, by decide, by decide, rfl⟩

theorem witness_unitOperationsComplete :
    State.reset.unit.buf.length = 16 * State.reset.degree.lanes ∧
      ({ State.reset with unit := { State.reset.unit with buf := countBytes 15 } } :
          State).unit.buf.length ≠ 16 * State.reset.degree.lanes := by decide

theorem witness_keyExpansionRecurrence :
    3 < 4 ∧ (4 ≤ 43 ∧ 43 < 44 ∧ 43 % 4 ≠ 0) ∧ 4 ≤ 40 ∧ 40 < 44 ∧ 40 % 4 = 0 := by decide

theorem witness_initIsAcceptedWhenIdle : State.reset.phase = .idle := rfl

theorem witness_macIsAcceptedWhenIdleWithContext :
    ready.phase = .idle ∧ ready.ctxValid = true ∧
      ({ ready with ports := { ready.ports with
        msgLen := 1, msg := Memory.ofBytes [0x07] } } : State).ports.msg.read 0 = some 0x07 :=
  ⟨rfl, rfl, rfl⟩

theorem witness_commandsAreRefusedBusyThenNoContext :
    (inPhase .start [] 0).phase ≠ .idle ∧ State.reset.phase = .idle ∧
      State.reset.ctxValid = false := by decide

theorem witness_keyScheduleBuildsTheContext : 3 < (State.resetFor .x4).degree.lanes := by decide

theorem witness_packPutsBlocksInLaneOrder :
    [countKey, Block128.zero].length = Degree.lanes .x2 := rfl

theorem witness_degreesGiveDifferentContextLanes :
    Degree.x1 ≠ .x2 ∧ 26 ≤ 26 ∧
      ((contextBlock .x1 (keyExpand .zero) 26)[0]?).isSome = true ∧
      ((contextBlock .x2 (keyExpand .zero) 26)[1]?).isSome = true :=
  ⟨by decide, by decide, rfl, rfl⟩

theorem witness_startSeedsTheWorkingRegisters : ∃ t, exec .mac ready = .next t := ⟨_, rfl⟩

theorem witness_rollingRegisterCarriesEarlierBlocks : WideShaped .x1 [countKey] := rfl

theorem witness_fullAbsorbsTheNextSuperblock :
    MessageCaptured (inPhase .full (countBytes 64) 0) ∧
      (inPhase .full (countBytes 64) 0).pos + 64 * 1 ≤ (inPhase .full (countBytes 64) 0).len :=
  ⟨inPhase_captured _ _, by decide⟩

/-- The rest is empty at POS = 64, and one byte short of a superblock at POS = 1. -/
theorem witness_padAbsorbsThePaddedRest :
    MessageCaptured (inPhase .pad (countBytes 64) 64) ∧
      (inPhase .pad (countBytes 64) 64).pos ≤ (inPhase .pad (countBytes 64) 64).len ∧
      (inPhase .pad (countBytes 64) 1).len < (inPhase .pad (countBytes 64) 1).pos + 64 * 1 :=
  ⟨inPhase_captured _ _, by decide, by decide⟩

theorem witness_absorptionStopsOutsideItsEntryCondition :
    (inPhase .full (countBytes 64) 1).len < (inPhase .full (countBytes 64) 1).pos + 64 * 1 ∧
      (inPhase .pad (countBytes 64) 65).len < (inPhase .pad (countBytes 64) 65).pos ∧
      MessageCaptured (inPhase .pad (countBytes 64) 0) ∧
      (inPhase .pad (countBytes 64) 0).pos + 64 * 1 ≤ (inPhase .pad (countBytes 64) 0).len ∧
      step { State.reset with unit := { State.reset.unit with sel := some 0b111 } } =
        .fault .reservedUnitCode :=
  ⟨by decide, by decide, inPhase_captured _ _, by decide, rfl⟩

theorem witness_blankRoundsAreCounted :
    ({ inPhase .blank [] 0 with cnt := 3 } : State).cnt = 3 ∧ (inPhase .blank [] 0).cnt ≠ 3 := by
  decide

theorem witness_modifiedAesReadsItsWindow :
    ∃ k k' : Vector Wide 18, k ≠ k' ∧
      ∀ j : Fin 18, (8 : Fin 9).val ≤ j.val → j.val ≤ (8 : Fin 9).val + 9 →
        k[j.val] = k'[j.val] :=
  ⟨Vector.ofFn fun _ => [], Vector.ofFn fun i => if i.val < 8 then [Block128.zero] else [],
    by decide, by decide⟩

theorem witness_modFoldsOneStateBlock :
    (inPhase .mod [] 0).idx = 0 ∧ ({ inPhase .mod [] 0 with idx := 8 } : State).idx = 8 ∧
      ({ inPhase .mod [] 0 with idx := 7 } : State).idx ≠ 8 := by decide

theorem witness_foldXorsTheLanes :
    WideShaped .x1 [countKey] ∧ WideShaped .x2 [countKey, countKey] ∧
      WideShaped .x4 [countKey, countKey, countKey, countKey] := ⟨rfl, rfl, rfl⟩

theorem witness_onlyInitAndResetTouchTheContext :
    (∃ t, exec .pFold ready = .next t) ∧ Instr.pFold ≠ .init ∧ Instr.pFold ≠ .pKs ∧
      (∃ t, step (facing ready (.command (word 0x02))) = .next t) ∧ ready.phase ≠ .ks ∧
      (word 0x02).cmd ≠ 0x01 := ⟨⟨_, rfl⟩, by decide, by decide, ⟨_, rfl⟩, by decide, by decide⟩

theorem witness_coreNeverWritesMemory :
    (∃ t, exec .pFold ready = .next t) ∧ Instr.pFold ≠ .mac ∧ (∃ t, exec .mac ready = .next t) ∧
      (∃ t, step ready = .next t) ∧ ready.host = [] :=
  ⟨⟨_, rfl⟩, by decide, ⟨_, rfl⟩, ⟨_, rfl⟩, rfl⟩

theorem witness_tagBecomesValidOnlyByEmit :
    (∃ t, step (inPhase .emit [] 0) = .next t ∧ t.tagValid = true) ∧
      ∃ t, step { ready with tagValid := true } = .next t ∧ t.tagValid = true :=
  ⟨⟨_, rfl, rfl⟩, ⟨_, rfl, rfl⟩⟩

theorem witness_degreeNeverChanges : ∃ t, step (State.resetFor .x4) = .next t := ⟨_, rfl⟩

theorem witness_safeStateStepsToSafeState : SafeState (inPhase .full (countBytes 64) 0) :=
  witness_full_is_safe

/-- Two cores that agree on the degree, PHASE and the counters and hold different keys. -/
theorem witness_controlFlowIsIndependentOfData :
    SameControl (inPhase .pad (countBytes 64) 64)
      { inPhase .pad (countBytes 64) 64 with k := countKey } := by
  have h := witness_pad_is_safe
  exact ⟨⟨h, h.1, h.2, h.3, h.4, h.5, h.6, h.7,
      ⟨rfl, inPhase_captured .pad 64, ⟨1, rfl⟩, by decide, by decide⟩, h.9⟩,
    ⟨rfl, rfl⟩, ⟨rfl, rfl⟩, rfl, rfl, fun _ => rfl, rfl, rfl, rfl, rfl, rfl⟩

/-- The two MACs: the same length, different nonces and messages, different counters before. -/
theorem witness_controlFlowIsIndependentOfData_mac :
    Waiting ready ∧ Waiting { ready with k := countKey, pos := 5 } ∧
      ready.degree = ({ ready with k := countKey, pos := 5 } : State).degree ∧
      ready.ctxValid = true ∧
      ({ word 0x02 with nonceIn := 1, msgLen := 64, msg := Memory.ofBytes [0x07] } :
          Ports).msgLen =
        ({ word 0x02 with msgLen := 64, msg := Memory.ofBytes (countBytes 64) } :
          Ports).msgLen := ⟨⟨rfl, rfl⟩, ⟨rfl, rfl⟩, rfl, rfl, rfl⟩

theorem witness_initComputesTheContext : Waiting { State.reset with ctxValid := true } :=
  ⟨rfl, rfl⟩

theorem witness_macComputesTheTag :
    Waiting ready ∧ ready.ctxValid = true ∧ (word 0x02).cmd = 0x02 ∧
      ({ word 0x02 with msgLen := 64, msg := Memory.ofBytes (countBytes 64) } : Ports).msgLen =
        (countBytes 64).length ∧ Holds (Memory.ofBytes (countBytes 64)) (countBytes 64) ∧
      18 < (countBytes 64).length / (64 * ready.degree.lanes) + 18 := by
  have h : ∀ a < 64, (Memory.ofBytes (countBytes 64)).read a = (countBytes 64)[a]? := by
    decide +kernel
  exact ⟨⟨rfl, rfl⟩, rfl, rfl, rfl, h, by decide⟩

theorem witness_contextReuseGivesTheSameTags :
    Waiting ready ∧ Waiting State.reset ∧ Waiting { ready with tagValid := true } ∧
      ready.degree = State.reset.degree ∧
      ready.degree = { ready with tagValid := true : State }.degree :=
  ⟨⟨rfl, rfl⟩, ⟨rfl, rfl⟩, ⟨rfl, rfl⟩, rfl, rfl⟩

end Sys2Proof.Tests
end

