-- ==== Sys2Proof/Proofs/StateRules.lean ====
section
/-! PROOFS. The statements of 10_state.md: the information bank (R33), and who writes the context
registers (R24). -/

namespace Sys2Proof.Proofs

open Sys2Proof.Machine Sys2Proof.Laws

section InformationBank

variable (s : State)

/-- The three low bits of STATUS (R33), read off the eight values of the flags. -/
theorem getLsbD_statusWord_low :
    (statusWord s).getLsbD 0 = s.ctxValid ∧ (statusWord s).getLsbD 1 = busy s ∧
      (statusWord s).getLsbD 2 = s.tagValid := by
  unfold statusWord
  generalize s.ctxValid = c, busy s = b, s.tagValid = t
  revert c b t
  decide

theorem bit_le_one (b : Bool) : bit b ≤ 1 := by cases b <;> decide

theorem toNat_statusWord_lt : (statusWord s).toNat < 2 ^ 3 := by
  have hc := bit_le_one s.ctxValid
  have hb := bit_le_one (busy s)
  have ht := bit_le_one s.tagValid
  simp only [statusWord, BitVec.toNat_ofNat]
  omega

/-- Bits 31 to 3 of STATUS are zero: its value is below 8. -/
theorem getLsbD_statusWord_of_three_le {i : Nat} (hi : 3 ≤ i) :
    (statusWord s).getLsbD i = false :=
  Nat.testBit_lt_two_pow <|
    (toNat_statusWord_lt s).trans_le (Nat.pow_le_pow_right (by decide) hi)

/-- BUSY (R31). -/
theorem busy_eq_true_iff : busy s = true ↔ s.phase ≠ .idle := by simp [busy]

theorem readInfo_of_six_le {index : Nat} (h : 6 ≤ index) :
    readInfo s index = .error .noSuchRegister := by
  obtain ⟨n, rfl⟩ := Nat.exists_eq_add_of_le' h
  rfl

end InformationBank

/-- Settles O9: the five constants of the bank by definition, STATUS bit by bit. -/
theorem informationBank : Obligations.InformationBank := by
  intro s
  obtain ⟨hctx, hbusy, htag⟩ := getLsbD_statusWord_low s
  have hphase : (statusWord s).getLsbD 1 = true ↔ s.phase ≠ .idle := by
    rw [hbusy, busy_eq_true_iff]
  exact ⟨rfl, rfl, rfl, rfl, rfl,
    ⟨statusWord s, rfl, hctx, hphase, htag, fun _ hi => getLsbD_statusWord_of_three_le s hi⟩,
    fun _ h => readInfo_of_six_le s h⟩

/-- The seven operations a select code can name (R65). -/
theorem decodeU3_ok {c : BitVec 3} {i : Instr} (h : decodeU3 c = .ok i) :
    (c = 0b000 ∧ i = .wzero) ∨ (c = 0b001 ∧ i = .wxor) ∨ (c = 0b010 ∧ i = .waesr) ∨
      (c = 0b011 ∧ i = .wload) ∨ (c = 0b100 ∧ i = .wstore) ∨ (c = 0b101 ∧ i = .keyexp) ∨
      (c = 0b110 ∧ i = .aesenc) := by
  unfold decodeU3 at h
  split at h <;> cases h
  all_goals
    rename_i hc
    simp [← BitVec.toNat_inj, hc]

section Context

variable {s t : State}

/-- R24 for one operation: every operation but INIT and P_KS keeps the context registers and
CTX_VALID. -/
theorem exec_keeps_context {i : Instr} (h : exec i s = .next t) (hinit : i ≠ .init)
    (hks : i ≠ .pKs) : t.ctx = s.ctx ∧ t.ctxValid = s.ctxValid := by
  cases i with
  | init => exact absurd rfl hinit
  | pKs => exact absurd rfl hks
  | mac =>
    obtain ⟨-, -, rfl⟩ := execMac_next h
    exact ⟨rfl, rfl⟩
  | pFull =>
    obtain ⟨_, -, rfl⟩ := execPFull_next h
    exact ⟨rfl, rfl⟩
  | pPad =>
    obtain ⟨_, -, -, rfl⟩ := execPPad_next h
    exact ⟨rfl, rfl⟩
  | pBlank => obtain ⟨-, rfl⟩ | ⟨-, rfl⟩ := execPBlank_next h <;> exact ⟨rfl, rfl⟩
  | pMod => obtain ⟨-, rfl⟩ | ⟨-, rfl⟩ := execPMod_next h <;> exact ⟨rfl, rfl⟩
  | wload =>
    obtain ⟨-, rfl⟩ := execWload_next h
    exact ⟨rfl, rfl⟩
  | pStart | pFold | pNonce | pEmit | wzero | wxor | waesr | wstore | keyexp | aesenc =>
    cases h
    exact ⟨rfl, rfl⟩

/-- On its own the core writes the context in P_KS only: no unit operation does, and no other phase
runs INIT or P_KS. -/
theorem internalStep_keeps_context (h : internalStep s = .next t) (hks : s.phase ≠ .ks) :
    t.ctx = s.ctx ∧ t.ctxValid = s.ctxValid := by
  obtain ⟨c, i, -, hi, hexec⟩ | ⟨-, -, rfl⟩ | ⟨-, i, hi, hexec⟩ := internalStep_next h
  case inl =>
    have hunit : i ≠ .init ∧ i ≠ .pKs := by
      rcases decodeU3_ok hi with ⟨-, rfl⟩ | ⟨-, rfl⟩ | ⟨-, rfl⟩ | ⟨-, rfl⟩ | ⟨-, rfl⟩ |
        ⟨-, rfl⟩ | ⟨-, rfl⟩ <;> decide
    exact (exec_keeps_context hexec hunit.1 hunit.2 :)
  case inr.inl => exact ⟨rfl, rfl⟩
  case inr.inr =>
    have hphase : i ≠ .init ∧ i ≠ .pKs := by
      rcases decodeP4_phaseCode hi with ⟨hp, -⟩ | ⟨-, rfl⟩ | ⟨-, rfl⟩ | ⟨-, rfl⟩ | ⟨-, rfl⟩ |
        ⟨-, rfl⟩ | ⟨-, rfl⟩ | ⟨-, rfl⟩ | ⟨-, rfl⟩
      · exact absurd hp hks
      all_goals decide
    exact exec_keeps_context hexec hphase.1 hphase.2

/-- A presented command word other than INIT keeps the context, refused or accepted. -/
theorem hostCommand_keeps_context {p : Ports} (h : hostCommand s p = .next t)
    (hcmd : p.cmd ≠ 0x01) : t.ctx = s.ctx ∧ t.ctxValid = s.ctxValid := by
  obtain ⟨-, rfl⟩ | ⟨_, _, -, -, rfl⟩ | ⟨i, hi, hexec⟩ := hostCommand_next h
  case inl => exact ⟨rfl, rfl⟩
  case inr.inl => exact ⟨rfl, rfl⟩
  case inr.inr =>
    obtain ⟨hc, -⟩ | ⟨-, rfl⟩ := decodeH_ok hi
    · exact absurd hc hcmd
    · exact (exec_keeps_context hexec (by decide) (by decide) :)

/-- A host action that is neither reset nor INIT keeps the context outside P_KS. -/
theorem hostStep_keeps_context {a : HostAction} (h : hostStep s a = .next t)
    (hks : s.phase ≠ .ks) (hreset : a ≠ .reset) (hcmd : ∀ p, a = .command p → p.cmd ≠ 0x01) :
    t.ctx = s.ctx ∧ t.ctxValid = s.ctxValid := by
  cases a with
  | pass => exact internalStep_keeps_context h hks
  | command p => exact hostCommand_keeps_context h (hcmd p rfl)
  | readTag | readInfo =>
    cases h
    exact ⟨rfl, rfl⟩
  | reset => exact absurd rfl hreset

theorem step_keeps_context (h : step s = .next t) (hks : s.phase ≠ .ks)
    (hreset : ∀ rest, s.host ≠ .reset :: rest)
    (hcmd : ∀ p rest, s.host = .command p :: rest → p.cmd ≠ 0x01) :
    t.ctx = s.ctx ∧ t.ctxValid = s.ctxValid := by
  cases hhost : s.host with
  | nil =>
    rw [step_of_host_nil s hhost] at h
    exact internalStep_keeps_context h hks
  | cons a rest =>
    rw [step_of_host_cons s rest a hhost] at h
    refine hostStep_keeps_context (s := { s with host := rest }) h hks ?_ ?_
    · rintro rfl
      exact hreset rest hhost
    · rintro p rfl
      exact hcmd p rest hhost

end Context

/-- Settles O50: from what each operation keeps, through the three sources of an operation (unit,
phase, host). -/
theorem onlyInitAndResetTouchTheContext : Obligations.OnlyInitAndResetTouchTheContext :=
  ⟨fun _ _ _ h hinit hks => exec_keeps_context h hinit hks,
    fun _ _ h hks hreset hcmd => step_keeps_context h hks hreset hcmd⟩

end Sys2Proof.Proofs
end

section
/-! PROOFS. The statements of 20_memory.md: what `MemRead` answers, and where the phases that use it
read (R40). -/

namespace Sys2Proof.Proofs

open Sys2Proof.Machine Sys2Proof.Safety Sys2Proof.Laws

section MessageSpace

variable {s : State} {a n : Nat}

theorem memRead_zero (h : a ≤ s.len) : memRead s a 0 = some [] :=
  memRead_eq_some.2 ⟨h, rfl, fun _ hj => absurd hj (Nat.not_lt_zero _)⟩

/-- An answer of `MemRead` bounds the read by LEN, so beyond LEN there is none. -/
theorem memRead_eq_none_of_len_lt (h : s.len < a + n) : memRead s a n = none := by
  rw [Option.eq_none_iff_forall_ne_some]
  intro bytes hread
  obtain ⟨hle, -, -⟩ := memRead_eq_some.1 hread
  omega

theorem memRead_of_captured (hc : MessageCaptured s) (h : a + n ≤ s.len) :
    ∃ m, memRead s a n = some m ∧ m.length = n ∧ ∀ j < n, m[j]? = s.msg.read (a + j) := by
  obtain ⟨m, hm⟩ := memRead_isSome hc h
  obtain ⟨-, hlen, hbytes⟩ := memRead_eq_some.1 hm
  exact ⟨m, hm, hlen, fun j hj => (hbytes j hj).symm⟩

/-- The entry condition of P_FULL (R105). -/
theorem entryCondition_full (h : EntryCondition s) (hp : s.phase = .full) :
    s.ctxValid = true ∧ MessageCaptured s ∧ s.degree.superBytes ∣ s.pos ∧
      s.pos + s.degree.superBytes ≤ s.len := by
  simpa only [EntryCondition, hp] using h

/-- The entry condition of P_PAD (R106). -/
theorem entryCondition_pad (h : EntryCondition s) (hp : s.phase = .pad) :
    s.ctxValid = true ∧ MessageCaptured s ∧ AtTail s := by
  simpa only [EntryCondition, hp] using h

/-- P_FULL reads one superblock, and the core enters it only while one is left. -/
theorem pFull_reads_inside (hs : SafeState s) (hp : s.phase = .full) :
    s.pos + s.degree.superBytes ≤ s.len := by
  obtain ⟨-, -, -, hle⟩ := entryCondition_full hs.entry hp
  exact hle

/-- P_PAD reads what is left of the message, from a position that has not passed its end. -/
theorem pPad_reads_inside (hs : SafeState s) (hp : s.phase = .pad) :
    s.pos + (s.len - s.pos) ≤ s.len := by
  obtain ⟨-, -, -, hpos, -⟩ := entryCondition_pad hs.entry hp
  exact (Nat.add_sub_of_le hpos).le

end MessageSpace

/-- Settles O17: the three answers of `MemRead` from the one rule of what it can answer, the two
bounds from the entry conditions of the phases that read. -/
theorem memReadReturnsTheMessageBytes : Obligations.MemReadReturnsTheMessageBytes :=
  ⟨fun _ _ _ hc h => memRead_of_captured hc h, fun _ _ h => memRead_zero h,
    fun _ _ _ h => memRead_eq_none_of_len_lt h,
    fun _ hs => ⟨pFull_reads_inside hs, pPad_reads_inside hs⟩⟩

end Sys2Proof.Proofs
end

section
/-! PROOFS. The statements of 30_encoding.md about the operand formats: the key-schedule inputs
(formats K and A, R58, R59) and the padded superblock (format P, R60). -/

namespace Sys2Proof.Proofs

open Sys2Proof.Machine Sys2Proof.Laws

section LittleEndian

@[simp] theorem length_leBytes (n x : Nat) : (leBytes n x).length = n := by
  induction n generalizing x with
  | zero => rfl
  | succ n ih => simp [leBytes, ih]

theorem leBytes_zero (n : Nat) : leBytes n 0 = List.replicate n 0 := by
  induction n with
  | zero => rfl
  | succ n ih => simp [leBytes, ih, List.replicate_succ]

/-- A number below 256 is zero-extended into its field (R62). -/
theorem leBytes_of_lt (n : Nat) {x : Nat} (h : x < 256) :
    leBytes (n + 1) x = BitVec.ofNat 8 x :: List.replicate n 0 := by
  rw [leBytes, Nat.div_eq_of_lt h, leBytes_zero]

end LittleEndian

section KeyScheduleInputs

variable {pos : Nat}

/-- Format A (R59). -/
theorem blockBytes_le128 {x : Nat} (h : x < 256) :
    blockBytes (le128 x) = BitVec.ofNat 8 x :: List.replicate 15 0 := by
  rw [le128, blockBytes_blockOf (length_leBytes 16 x), leBytes_of_lt 15 h]

/-- Format K (R58). -/
theorem blockBytes_ksin (d : Degree) (lane : Nat) (h : pos < 256) :
    blockBytes (ksin d pos lane) =
      BitVec.ofNat 8 pos ::
        (List.replicate 13 0 ++ [BitVec.ofNat 8 lane, BitVec.ofNat 8 (d.lanes - 1)]) := by
  rw [ksin, le64, leBytes_of_lt 7 h]
  exact blockBytes_blockOf rfl

/-- For D = 1 the lane and the degree bytes are zero, so format K is `le128` of the position (R58). -/
theorem ksin_x1_zero (h : pos < 256) : ksin .x1 pos 0 = le128 pos := by
  apply Block128.eq_of_bytes
  rw [blockBytes_ksin .x1 0 h, blockBytes_le128 h]
  rfl

end KeyScheduleInputs

section PaddedSuperblock

variable {d : Degree} {rest : List Byte}

/-- Position r always exists because r < 64·D (R60). -/
theorem length_padBuffer (h : rest.length < d.superBytes) :
    (padBuffer d rest).length = d.superBytes := by
  simp only [padBuffer, List.length_append, List.length_singleton, List.length_replicate]
  omega

theorem getElem?_padBuffer_of_lt {i : Nat} (h : i < rest.length) :
    (padBuffer d rest)[i]? = rest[i]? := by
  rw [padBuffer, List.append_assoc, List.getElem?_append_left h]

theorem getElem?_padBuffer_length : (padBuffer d rest)[rest.length]? = some Config.padByte := by
  simp [padBuffer]

theorem getElem?_padBuffer_of_gt {i : Nat} (hr : rest.length < i) (hi : i < d.superBytes) :
    (padBuffer d rest)[i]? = some 0 := by
  have hlen : (rest ++ [Config.padByte]).length ≤ i := by simpa using hr
  rw [padBuffer, List.getElem?_append_right hlen, List.getElem?_replicate_of_lt]
  simp only [List.length_append, List.length_singleton]
  omega

end PaddedSuperblock

/-- Settles O16: the three ranges of positions, one lemma each. -/
theorem paddedSuperblockLayout : Obligations.PaddedSuperblockLayout :=
  fun _ _ h => ⟨length_padBuffer h, fun _ hi => getElem?_padBuffer_of_lt hi,
    getElem?_padBuffer_length, fun _ hr hi => getElem?_padBuffer_of_gt hr hi⟩

/-- Settles O14: positions to 26 fit in byte 0, and lane 0 is the only lane of D = 1. -/
theorem keyScheduleInputLayout : Obligations.KeyScheduleInputLayout := by
  intro d pos lane hpos hlane
  have hbyte : pos < 256 := by omega
  refine ⟨blockBytes_ksin d lane hbyte, ?_⟩
  rintro rfl
  obtain rfl : lane = 0 := Nat.lt_one_iff.1 hlane
  exact ksin_x1_zero hbyte

/-- Settles O15: both constants fit in byte 0, and the two schedules are those of the context by
definition. -/
theorem auxiliaryInputLayout : Obligations.AuxiliaryInputLayout :=
  ⟨blockBytes_le128 (by decide), blockBytes_le128 (by decide), fun _ _ => ⟨rfl, rfl⟩⟩

end Sys2Proof.Proofs
end

section
/-! PROOFS. The statements of 40_block_primitives.md: multiplication in GF(2^8) and the S-box (R76,
R79), ShiftRows (R77), MixColumns (R78), WXOR (R74), WLOAD and WSTORE (R81, R82). -/

namespace Sys2Proof.Proofs

open Sys2Proof.Machine Sys2Proof.Laws

section ExclusiveOr

/-- Exclusive or exchanges the middle terms of two pairs. -/
theorem byte_xor_xor_xor_comm (a b c d : Byte) :
    (a ^^^ b) ^^^ (c ^^^ d) = (a ^^^ c) ^^^ (b ^^^ d) := by ac_rfl

variable (a b c : Block128)

theorem Block128.xor_comm : a.xor b = b.xor a := by
  simp [Block128.xor, Column.xor, BitVec.xor_comm]

theorem Block128.xor_assoc : (a.xor b).xor c = a.xor (b.xor c) := by
  simp [Block128.xor, Column.xor, BitVec.xor_assoc]

@[simp] theorem Block128.xor_self : a.xor a = .zero := by
  simp [Block128.xor, Column.xor, Block128.zero, Column.zero]

@[simp] theorem Block128.xor_zero : a.xor .zero = a := by
  simp [Block128.xor, Column.xor, Block128.zero, Column.zero]

theorem blockBytes_xor :
    blockBytes (a.xor b) = List.zipWith (· ^^^ ·) (blockBytes a) (blockBytes b) := rfl

end ExclusiveOr

section WideExclusiveOr

theorem toBytes_wideXor {a b : Wide} (h : a.length = b.length) :
    toBytes (wideXor a b) = List.zipWith (· ^^^ ·) (toBytes a) (toBytes b) := by
  induction a generalizing b with
  | nil => rfl
  | cons x a ih =>
    cases b with
    | nil => cases h
    | cons y b =>
      have htail := ih (Nat.succ.inj h)
      simp only [toBytes, wideXor, List.zipWith_cons_cons, List.flatMap_cons] at htail ⊢
      rw [htail, blockBytes_xor, List.zipWith_append (by simp)]

theorem wideXor_self {d : Degree} {a : Wide} (h : WideShaped d a) : wideXor a a = wideZero d := by
  simp [wideXor, wideZero, List.zipWith_self, ← h.symm]

theorem wideXor_wideZero {d : Degree} {a : Wide} (h : WideShaped d a) :
    wideXor a (wideZero d) = a := by
  rw [wideXor, wideZero, ← h]
  clear h
  induction a with
  | nil => rfl
  | cons x a ih =>
    rw [List.length_cons, List.replicate_succ, List.zipWith_cons_cons, ih, Block128.xor_zero]

theorem wideXor_comm (a b : Wide) : wideXor a b = wideXor b a :=
  List.zipWith_comm_of_comm Block128.xor_comm

theorem wideXor_assoc (a b c : Wide) : wideXor (wideXor a b) c = wideXor a (wideXor b c) := by
  induction a generalizing b c with
  | nil => simp [wideXor]
  | cons x a ih =>
    match b, c with
    | [], _ => simp [wideXor]
    | _ :: _, [] => simp [wideXor]
    | y :: b, z :: c => exact congrArg₂ List.cons (Block128.xor_assoc x y z) (ih b c)

end WideExclusiveOr

/-- Settles O25: the bytes of a block, then the lanes of a wide value. -/
theorem wxorIsBytewise : Obligations.WxorIsBytewise :=
  ⟨rfl,
    fun _ _ _ ha hb =>
      ⟨toBytes_wideXor (ha.trans hb.symm), wideXor_self ha, wideXor_wideZero ha⟩,
    blockBytes_xor, fun a b c => ⟨wideXor_comm a b, wideXor_assoc a b c⟩, fun _ => rfl,
    by decide⟩

section LoadStore

/-- Reading the blocks of a buffer in order reads the buffer. -/
theorem flatMap_slice_range (buf : List Byte) {n : Nat} (h : 16 * n ≤ buf.length) :
    ((List.range n).flatMap fun l => blockBytes (blockOf (slice buf (16 * l) 16))) =
      buf.take (16 * n) := by
  induction n with
  | zero => rfl
  | succ n ih =>
    have hslice : (slice buf (16 * n) 16).length = 16 := length_slice (by omega)
    simp only [List.range_succ, List.flatMap_append, List.flatMap_singleton]
    rw [ih (by omega), blockBytes_blockOf hslice, slice, Nat.mul_succ, List.take_add]

theorem toBytes_fromBytes {d : Degree} {buf : List Byte} (h : buf.length = 16 * d.lanes) :
    toBytes (fromBytes d buf) = buf := by
  rw [toBytes, fromBytes, List.flatMap_map, flatMap_slice_range buf h.ge, ← h, List.take_length]

/-- A wide value is determined by its bytes and its number of lanes. -/
theorem eq_of_toBytes_eq {w w' : Wide} (hlen : w.length = w'.length)
    (h : toBytes w = toBytes w') : w = w' := by
  induction w generalizing w' with
  | nil => exact (List.length_eq_zero_iff.1 hlen.symm).symm
  | cons b w ih =>
    cases w' with
    | nil => cases hlen
    | cons b' w' =>
      simp only [toBytes, List.flatMap_cons] at h
      obtain ⟨hhead, htail⟩ := List.append_inj h rfl
      rw [Block128.eq_of_bytes hhead, ih (Nat.succ.inj hlen) htail]

theorem fromBytes_toBytes {d : Degree} {w : Wide} (h : WideShaped d w) :
    fromBytes d (toBytes w) = w := by
  have hbytes : (toBytes w).length = 16 * d.lanes := by rw [length_toBytes, h]
  exact eq_of_toBytes_eq ((length_fromBytes d _).trans h.symm) (toBytes_fromBytes hbytes)

theorem getElem?_fromBytes {d : Degree} (buf : List Byte) {l : Nat} (h : l < d.lanes) :
    (fromBytes d buf)[l]? = some (blockOf (slice buf (16 * l) 16)) := by
  simp [fromBytes, h]

theorem byte_of_lane_fromBytes {d : Degree} {buf : List Byte} (h : buf.length = 16 * d.lanes)
    {l j : Nat} (hl : l < d.lanes) (hj : j < 16) :
    ((fromBytes d buf)[l]?.bind fun b => (blockBytes b)[j]?) = buf[16 * l + j]? := by
  have hslice : (slice buf (16 * l) 16).length = 16 := length_slice (by omega)
  rw [getElem?_fromBytes buf hl, Option.bind_some, blockBytes_blockOf hslice,
    getElem?_slice _ _ _ _ hj]

end LoadStore

/-- Settles O28: the blocks of a buffer in order are the buffer, and a wide value is determined by
its bytes. -/
theorem loadAndStoreAreInverse : Obligations.LoadAndStoreAreInverse :=
  ⟨rfl,
    fun d buf h => ⟨length_fromBytes d buf, toBytes_fromBytes h,
      fun _ _ hl hj => byte_of_lane_fromBytes h hl hj⟩,
    fun _ w h => ⟨by rw [length_toBytes, h], fromBytes_toBytes h⟩, fun _ => rfl⟩

section FieldMultiplication

variable (n : Nat) (a a' b b' c : Byte)

/-- `mul(2, b)` as a shift and a conditional reduction (R79). -/
theorem xtime_eq_xor : xtime b = (b <<< 1) ^^^ if b.getLsbD 7 then 0x1b else 0 := by
  unfold xtime
  split <;> simp

/-- A choice by the exclusive or of two bits. -/
theorem ite_xor_eq_xor_ite (p q : Bool) :
    (if p ^^ q then b else 0) = (if p then b else 0) ^^^ if q then b else 0 := by
  cases p <;> cases q <;> simp

theorem xtime_xor : xtime (b ^^^ b') = xtime b ^^^ xtime b' := by
  simp only [xtime_eq_xor]
  rw [BitVec.getLsbD_xor, BitVec.shiftLeft_xor_distrib, ite_xor_eq_xor_ite, byte_xor_xor_xor_comm]

theorem xtime_zero : xtime 0 = 0 := rfl

/-- The recursion of `gfMulFrom` adds the highest bit last. -/
theorem gfMulFrom_succ :
    gfMulFrom (n + 1) a b = gfMulFrom n a b ^^^ if a.getLsbD n then xtime^[n] b else 0 := by
  induction n generalizing a b with
  | zero => simp [gfMulFrom]
  | succ n ih =>
    rw [gfMulFrom, ih, gfMulFrom, BitVec.xor_assoc, Function.iterate_succ_apply,
      BitVec.getLsbD_ushiftRight, Nat.add_comm 1 n]

/-- The sum of R79 over the bits set in `a`. -/
theorem gfMulFrom_eq_foldl :
    gfMulFrom n a b =
      (List.range n).foldl (fun acc i => acc ^^^ if a.getLsbD i then xtime^[i] b else 0) 0 := by
  induction n with
  | zero => rfl
  | succ n ih => rw [gfMulFrom_succ, ih, List.range_succ, List.foldl_append]; rfl

theorem gfMul_two : gfMul 2 b = xtime b := by
  simp [gfMul, gfMulFrom]

@[simp] theorem one_gfMul : gfMul 1 b = b := by
  simp [gfMul, gfMulFrom]

/-- A product is a sum over the bits of its left factor, so it distributes over them (R79). -/
theorem gfMulFrom_xor_left :
    gfMulFrom n (a ^^^ a') b = gfMulFrom n a b ^^^ gfMulFrom n a' b := by
  induction n generalizing a a' b with
  | zero => simp [gfMulFrom]
  | succ n ih =>
    simp only [gfMulFrom]
    rw [BitVec.ushiftRight_xor_distrib, ih, byte_xor_xor_xor_comm, BitVec.getLsbD_xor,
      ite_xor_eq_xor_ite]

theorem gfMul_xor_left : gfMul (a ^^^ a') b = gfMul a b ^^^ gfMul a' b :=
  gfMulFrom_xor_left 8 a a' b

theorem gfMul_three : gfMul 3 b = gfMul 2 b ^^^ b := by
  have h := gfMul_xor_left 2 1 b
  rwa [one_gfMul] at h

theorem zero_gfMul : gfMul 0 b = 0 := by
  simp [gfMul, gfMulFrom]

/-- `gfMulFrom n` reads the lowest `n` bits only. -/
theorem gfMulFrom_congr {n : Nat} {a a' : Byte} (h : ∀ i < n, a.getLsbD i = a'.getLsbD i) :
    gfMulFrom n a b = gfMulFrom n a' b := by
  induction n with
  | zero => rfl
  | succ n ih =>
    rw [gfMulFrom_succ, gfMulFrom_succ, ih fun i hi => h i (by omega), h n (by omega)]

theorem xtime_gfMulFrom : xtime (gfMulFrom n a b) = gfMulFrom n a (xtime b) := by
  induction n generalizing a b with
  | zero => exact xtime_zero
  | succ n ih =>
    simp only [gfMulFrom]
    rw [xtime_xor, ih, apply_ite xtime, xtime_zero]

/-- A shifted left factor is a doubled right factor, but for the bit shifted out. -/
theorem gfMul_shiftLeft : gfMul (a <<< 1) b = gfMulFrom 7 a (xtime b) := by
  have hbits : ∀ i < 7, ((a <<< 1) >>> 1).getLsbD i = a.getLsbD i := by
    intro i hi
    have hlt : 1 + i < 8 := by omega
    rw [BitVec.getLsbD_ushiftRight, BitVec.getLsbD_shiftLeft, Nat.add_sub_cancel_left]
    simp only [hlt, Nat.not_lt.2 (Nat.le_add_right 1 i), decide_true, decide_false, Bool.not_false,
      Bool.true_and]
  have hlow : (a <<< 1).getLsbD 0 = false := by simp
  rw [gfMul, gfMulFrom, hlow, gfMulFrom_congr (xtime b) hbits]
  simp

/-- The reduction polynomial of R79: doubling eight times is multiplying by 0x1b. -/
theorem gfMul_reduction : gfMul 0x1b b = xtime^[7] (xtime b) := by
  revert b
  decide +kernel

theorem gfMul_xtime_left : gfMul (xtime a) b = xtime (gfMul a b) := by
  have hsplit : xtime (gfMul a b) =
      gfMulFrom 7 a (xtime b) ^^^ if a.getLsbD 7 then xtime^[7] (xtime b) else 0 := by
    rw [gfMul, xtime_gfMulFrom, gfMulFrom_succ]
  rw [hsplit, xtime_eq_xor, gfMul_xor_left, gfMul_shiftLeft, apply_ite (gfMul · b), zero_gfMul,
    gfMul_reduction]

theorem gfMul_gfMulFrom : gfMul (gfMulFrom n a b) c = gfMulFrom n a (gfMul b c) := by
  induction n generalizing a b with
  | zero => exact zero_gfMul c
  | succ n ih =>
    simp only [gfMulFrom]
    rw [gfMul_xor_left, ih, gfMul_xtime_left, apply_ite (gfMul · c), zero_gfMul]

/-- Both factors act as sums of doublings, and doubling passes through a product. -/
theorem gfMul_assoc : gfMul (gfMul a b) c = gfMul a (gfMul b c) := gfMul_gfMulFrom 8 a b c

end FieldMultiplication

section SubstitutionBox

/-- The affine map `A` of R76. -/
def sboxAffine (c : Byte) : Byte :=
  c ^^^ c.rotateLeft 1 ^^^ c.rotateLeft 2 ^^^ c.rotateLeft 3 ^^^ c.rotateLeft 4 ^^^ 0x63

/-- `inv` of R76, read off the S-box by undoing the affine map. -/
def gfInv (x : Byte) : Byte :=
  (sbox x).rotateLeft 1 ^^^ (sbox x).rotateLeft 3 ^^^ (sbox x).rotateLeft 6 ^^^ 0x05

theorem sbox_eq_sboxAffine_gfInv (x : Byte) : sbox x = sboxAffine (gfInv x) := by
  revert x
  decide +kernel

theorem gfInv_zero : gfInv 0 = 0 := by decide

theorem gfMul_gfInv {x : Byte} (h : x ≠ 0) : gfMul x (gfInv x) = 1 := by
  revert x
  decide +kernel

theorem gfInv_gfMul {x : Byte} (h : x ≠ 0) : gfMul (gfInv x) x = 1 := by
  revert x
  decide +kernel

theorem gfMul_one (x : Byte) : gfMul x 1 = x := by
  revert x
  decide +kernel

/-- Inverses are unique because multiplication is associative. -/
theorem eq_gfInv {x c : Byte} (h : x ≠ 0) (hc : gfMul x c = 1) : c = gfInv x :=
  calc c = gfMul (gfMul (gfInv x) x) c := by rw [gfInv_gfMul h, one_gfMul]
    _ = gfMul (gfInv x) (gfMul x c) := gfMul_assoc _ _ _
    _ = gfInv x := by rw [hc, gfMul_one]

theorem existsUnique_gfMul_eq_one {x : Byte} (h : x ≠ 0) : ∃! c, gfMul x c = 1 :=
  ⟨gfInv x, gfMul_gfInv h, fun _ hc => eq_gfInv h hc⟩

theorem sbox_eq_sboxAffine {x c : Byte} (hzero : x = 0 → c = 0)
    (hinv : x ≠ 0 → gfMul x c = 1) : sbox x = sboxAffine c := by
  have hc : c = gfInv x := by
    by_cases hx : x = 0
    · rw [hzero hx, hx, gfInv_zero]
    · exact eq_gfInv hx (hinv hx)
  rw [hc, sbox_eq_sboxAffine_gfInv]

theorem blockBytes_subBytes (b : Block128) :
    blockBytes (subBytes b) = (blockBytes b).map sbox := rfl

end SubstitutionBox

/-- Settles O21: products are the sum of R79 by induction on the bits, inverses are unique by
associativity, so the inverse the table holds is the one the rule names. -/
theorem sboxIsTheAffineImageOfTheInverse : Obligations.SboxIsTheAffineImageOfTheInverse := by
  refine ⟨gfMul_two, fun a b => ?_, fun _ h => existsUnique_gfMul_eq_one h,
    fun _ _ hzero hinv => sbox_eq_sboxAffine hzero hinv, blockBytes_subBytes⟩
  rw [funext gfMul_two]
  exact gfMulFrom_eq_foldl 8 a b

section Columns

/-- Column `c` of a block (R44). -/
def column (b : Block128) : Nat → Column
  | 0 => b.c0
  | 1 => b.c1
  | 2 => b.c2
  | _ => b.c3

variable (b : Block128) {c r : Nat}

theorem getElem?_blockBytes (hc : c < 4) (hr : r < 4) :
    (blockBytes b)[4 * c + r]? = (columnBytes (column b c))[r]? := by
  interval_cases c <;> interval_cases r <;> rfl

/-- Row `r` of output column `c` is row `r` of the input column `r` places to the right (R77). -/
theorem getElem?_column_shiftRows (hc : c < 4) (hr : r < 4) :
    (columnBytes (column (shiftRows b) c))[r]? = (columnBytes (column b ((c + r) % 4)))[r]? := by
  interval_cases c <;> interval_cases r <;> rfl

theorem column_mixColumns (c : Nat) : column (mixColumns b) c = mixColumn (column b c) := by
  unfold column
  split <;> rfl

/-- A column is known from its four bytes in the block. -/
theorem column_eq {a0 a1 a2 a3 : Byte} (hc : c < 4) (h0 : (blockBytes b)[4 * c]? = some a0)
    (h1 : (blockBytes b)[4 * c + 1]? = some a1) (h2 : (blockBytes b)[4 * c + 2]? = some a2)
    (h3 : (blockBytes b)[4 * c + 3]? = some a3) : column b c = ⟨a0, a1, a2, a3⟩ := by
  rw [← Nat.add_zero (4 * c), getElem?_blockBytes b hc (by decide)] at h0
  rw [getElem?_blockBytes b hc (by decide)] at h1 h2 h3
  cases h0; cases h1; cases h2; cases h3
  rfl

theorem mixColumn_of_equal_bytes (x : Byte) : mixColumn ⟨x, x, x, x⟩ = ⟨x, x, x, x⟩ := by
  have hcancel : gfMul 2 x ^^^ gfMul 3 x = x := by
    rw [gfMul_three, ← BitVec.xor_assoc, BitVec.xor_self, BitVec.zero_xor]
  have hsum : (gfMul 2 x ^^^ gfMul 3 x) ^^^ (x ^^^ x) = x := by
    rw [hcancel, BitVec.xor_self, BitVec.xor_zero]
  simp only [mixColumn, Column.mk.injEq]
  refine ⟨?_, ?_, ?_, ?_⟩
  all_goals exact .trans (by ac_rfl) hsum

end Columns

/-- Settles O22: the byte of a block through its column. -/
theorem shiftRowsRotatesRows : Obligations.ShiftRowsRotatesRows := by
  intro b c r hc hr
  rw [getElem?_blockBytes _ hc hr, getElem?_blockBytes _ (Nat.mod_lt _ (by decide)) hr,
    getElem?_column_shiftRows b hc hr]

/-- Settles O23: MixColumns acts on each column, known from its four bytes; `mul(3, x)` by
distributivity. -/
theorem mixColumnsFormula : Obligations.MixColumnsFormula := by
  refine ⟨fun b c a0 a1 a2 a3 hc h0 h1 h2 h3 => ?_, gfMul_three, mixColumn_of_equal_bytes,
    by decide⟩
  have hcol : column (mixColumns b) c = mixColumn ⟨a0, a1, a2, a3⟩ := by
    rw [column_mixColumns, column_eq b hc h0 h1 h2 h3]
  have hbyte : ∀ r < 4, (blockBytes (mixColumns b))[4 * c + r]? =
      (columnBytes (mixColumn ⟨a0, a1, a2, a3⟩))[r]? := fun r hr => by
    rw [getElem?_blockBytes _ hc hr, hcol]
  exact ⟨hbyte 0 (by decide), hbyte 1 (by decide), hbyte 2 (by decide), hbyte 3 (by decide)⟩

end Sys2Proof.Proofs
end

section
/-! PROOFS. The statements of 41_aes128_scalar.md: the key expansion (R86), the encryption (R87) and
its last round (R88). -/

namespace Sys2Proof.Proofs

open Sys2Proof.Machine Sys2Proof.Laws

section Words

/-- The first four words of a byte string that begins with a block are the block's columns. -/
theorem columnOf_blockBytes_append (b : Block128) (rest : List Byte) {c : Nat} (hc : c < 4) :
    columnOf (blockBytes b ++ rest) c = column b c := by
  interval_cases c <;> rfl

/-- Past the first block, the words are those of the rest. -/
theorem columnOf_blockBytes_append_add_four (b : Block128) (rest : List Byte) (i : Nat) :
    columnOf (blockBytes b ++ rest) (i + 4) = columnOf rest i := rfl

/-- Blocks laid end to end, read as words of four bytes. -/
theorem columnOf_flatMap_blockBytes {blocks : List Block128} {r c : Nat} (hr : r < blocks.length)
    (hc : c < 4) : columnOf (blocks.flatMap blockBytes) (4 * r + c) = column blocks[r] c := by
  induction blocks generalizing r with
  | nil => exact absurd hr (Nat.not_lt_zero r)
  | cons b blocks ih =>
    rw [List.flatMap_cons]
    cases r with
    | zero => rw [Nat.mul_zero, Nat.zero_add, columnOf_blockBytes_append b _ hc]; rfl
    | succ r =>
      have hindex : 4 * (r + 1) + c = 4 * r + c + 4 := by omega
      rw [hindex, columnOf_blockBytes_append_add_four, ih (Nat.lt_of_succ_lt_succ hr)]
      rfl

end Words

section KeyExpansion

/-- `RCON[1]` to `RCON[10]` (R86). -/
def roundConstants : List Byte :=
  [0x01, 0x02, 0x04, 0x08, 0x10, 0x20, 0x40, 0x80, 0x1b, 0x36]

/-- `w[i]` of R86, for `i` below 44. -/
def expandedWord (key : Block128) : Nat → Column :=
  columnOf ((keyExpand key).toList.flatMap blockBytes)

variable (key p : Block128) (rcon : Byte) {r c i : Nat}

/-- The first turn of the loop of R86, where 4 divides the word's index. -/
theorem column_nextRoundKey_zero :
    column (nextRoundKey p rcon) 0 =
      (column p 0).xor (xorFirst (subColumn (rotWord (column p 3))) rcon) := rfl

/-- The other three turns. -/
theorem column_nextRoundKey_succ (hc : c < 3) :
    column (nextRoundKey p rcon) (c + 1) =
      (column p (c + 1)).xor (column (nextRoundKey p rcon) c) := by
  interval_cases c <;> rfl

theorem getElem_keyExpand_zero : (keyExpand key)[0] = key := rfl

theorem getElem_keyExpand_succ (hr : r < 10) :
    (keyExpand key)[r + 1] = nextRoundKey (keyExpand key)[r] (roundConstants.getD r 0) := by
  interval_cases r <;> rfl

/-- Round key `r` is words `4 r` to `4 r + 3`. -/
theorem expandedWord_eq_column (hr : r < 11) (hc : c < 4) :
    expandedWord key (4 * r + c) = column (keyExpand key)[r] c := by
  have hlen : r < (keyExpand key).toList.length := by rwa [Vector.length_toList]
  rw [expandedWord, columnOf_flatMap_blockBytes hlen hc, Vector.getElem_toList]

theorem expandedWord_of_lt_four (hi : i < 4) : expandedWord key i = columnOf (blockBytes key) i :=
  calc expandedWord key i = expandedWord key (4 * 0 + i) := by rw [Nat.mul_zero, Nat.zero_add]
    _ = column key i := by rw [expandedWord_eq_column key (by decide) hi, getElem_keyExpand_zero]
    _ = columnOf (blockBytes key) i := by
      rw [← columnOf_blockBytes_append key [] hi, List.append_nil]

/-- The recurrence where 4 divides the index: RotWord, SubWord and RCON. -/
theorem expandedWord_four_mul_succ (hr : r < 10) :
    expandedWord key (4 * (r + 1)) =
      (expandedWord key (4 * r)).xor
        (xorFirst (subColumn (rotWord (expandedWord key (4 * r + 3))))
          (roundConstants.getD r 0)) := by
  have hnext : expandedWord key (4 * (r + 1)) = column (keyExpand key)[r + 1] 0 :=
    expandedWord_eq_column key (r := r + 1) (c := 0) (by omega) (by decide)
  have hfirst : expandedWord key (4 * r) = column (keyExpand key)[r] 0 :=
    expandedWord_eq_column key (c := 0) (by omega) (by decide)
  have hlast : expandedWord key (4 * r + 3) = column (keyExpand key)[r] 3 :=
    expandedWord_eq_column key (by omega) (by decide)
  rw [hnext, hfirst, hlast, getElem_keyExpand_succ key hr, column_nextRoundKey_zero]

/-- The recurrence at the other indices. -/
theorem expandedWord_four_mul_succ_add_succ (hr : r < 10) (hc : c < 3) :
    expandedWord key (4 * (r + 1) + (c + 1)) =
      (expandedWord key (4 * r + (c + 1))).xor (expandedWord key (4 * (r + 1) + c)) := by
  rw [expandedWord_eq_column key (by omega) (by omega),
    expandedWord_eq_column key (by omega) (by omega),
    expandedWord_eq_column key (by omega) (by omega), getElem_keyExpand_succ key hr,
    column_nextRoundKey_succ _ _ hc]

theorem expandedWord_of_mod_eq_zero (hi : 4 ≤ i) (hlt : i < 44) (hmod : i % 4 = 0) :
    expandedWord key i =
      (expandedWord key (i - 4)).xor
        (xorFirst (subColumn (rotWord (expandedWord key (i - 1))))
          (roundConstants.getD (i / 4 - 1) 0)) := by
  obtain ⟨r, rfl⟩ : ∃ r, i = 4 * (r + 1) := ⟨i / 4 - 1, by omega⟩
  have hround : 4 * (r + 1) / 4 - 1 = r := by omega
  rw [hround]
  exact expandedWord_four_mul_succ key (by omega)

theorem expandedWord_of_mod_ne_zero (hi : 4 ≤ i) (hlt : i < 44) (hmod : i % 4 ≠ 0) :
    expandedWord key i = (expandedWord key (i - 4)).xor (expandedWord key (i - 1)) := by
  obtain ⟨r, c, hc, rfl⟩ : ∃ r c, c < 3 ∧ i = 4 * (r + 1) + (c + 1) :=
    ⟨i / 4 - 1, i % 4 - 1, by omega, by omega⟩
  have hback : 4 * (r + 1) + (c + 1) - 4 = 4 * r + (c + 1) := by omega
  rw [hback]
  exact expandedWord_four_mul_succ_add_succ key (by omega) hc

/-- The round keys are the 44 words laid end to end. -/
theorem getElem_keyExpand (hr : r < 11) :
    (keyExpand key)[r] =
      ⟨expandedWord key (4 * r), expandedWord key (4 * r + 1), expandedWord key (4 * r + 2),
        expandedWord key (4 * r + 3)⟩ := by
  have hword : ∀ c < 4, expandedWord key (4 * r + c) = column (keyExpand key)[r] c :=
    fun _ hc => expandedWord_eq_column key hr hc
  have hfirst : expandedWord key (4 * r) = column (keyExpand key)[r] 0 := hword 0 (by decide)
  rw [hfirst, hword 1 (by decide), hword 2 (by decide), hword 3 (by decide)]
  rfl

end KeyExpansion

-- The examples run the model in the kernel. As in the tests, they are checked in place: each theorem
-- that waits for the kernel beside the others costs a thread, and so memory.
set_option Elab.async false in
/-- Settles O30: the words are the columns of the round keys, and each round key comes from the one
before it by four turns of the loop. -/
theorem keyExpansionRecurrence : Obligations.KeyExpansionRecurrence :=
  ⟨rfl, fun _ => rfl,
    fun key => ⟨fun _ hi => expandedWord_of_lt_four key hi,
      fun _ hi hlt hmod => expandedWord_of_mod_ne_zero key hi hlt hmod,
      fun _ hi hlt hmod => expandedWord_of_mod_eq_zero key hi hlt hmod,
      fun r => getElem_keyExpand key r.isLt⟩,
    by decide +kernel, by decide +kernel, by decide +kernel⟩

/-- The nine full rounds of R87 as one loop, and the last round without MixColumns (R88). -/
theorem aesEncrypt_eq_foldl (rk : Sched) (p : Block128) :
    aesEncrypt rk p =
      aesLast ((List.finRange 9).foldl (fun y i => aesRound1 y rk[i.val + 1]) (p.xor rk[0]))
        rk[10] := rfl

set_option Elab.async false in
/-- Settles O31: the rounds by the definitions of the full and of the last round. -/
theorem aesEncryptionRounds : Obligations.AesEncryptionRounds :=
  ⟨rfl, fun _ => rfl, aesEncrypt_eq_foldl, by decide +kernel, by decide +kernel, fun _ _ => rfl,
    by decide +kernel⟩

end Sys2Proof.Proofs
end

section
/-! PROOFS. The statements of 42_key_schedule.md: PACK (R92). -/

namespace Sys2Proof.Proofs

open Sys2Proof.Machine Sys2Proof.Laws

/-- PACK loads the bytes that WSTORE would write of its blocks taken as lanes. -/
theorem pack_eq_fromBytes_toBytes (d : Degree) (c : List Block128) :
    pack d c = fromBytes d (toBytes c) := rfl

/-- PACK of one block per lane is the wide value with those lanes (R92). -/
theorem pack_eq_self {d : Degree} {c : List Block128} (h : WideShaped d c) : pack d c = c := by
  rw [pack_eq_fromBytes_toBytes, fromBytes_toBytes h]

/-- Settles O36: a load undoes a store, and PACK is the load by definition. -/
theorem packPutsBlocksInLaneOrder : Obligations.PackPutsBlocksInLaneOrder :=
  fun _ _ h => ⟨pack_eq_self h, rfl⟩

end Sys2Proof.Proofs
end

section
/-! PROOFS. The statements of 43_absorption.md: the padding is injective (R109), the rolling register
(R102), and P_START (R104). -/

namespace Sys2Proof.Proofs

open Sys2Proof.Machine Sys2Proof.Laws

section Superblocks

/-- Consecutive slices of one size, in order, are the bytes they cover. -/
theorem flatten_slices (a : List Byte) (n size : Nat) :
    ((List.range n).map fun q => slice a (q * size) size).flatten = a.take (n * size) := by
  induction n with
  | zero => simp
  | succ n ih =>
    rw [List.range_succ, List.map_append, List.flatten_append, ih, Nat.succ_mul, List.take_add]
    simp [slice]

variable {d : Degree} {rest rest' : List Byte}

/-- The 0x01 of one padded superblock cannot stand where the other one has its trailing zeros. -/
theorem length_le_of_padBuffer_eq (h : rest'.length < d.superBytes)
    (heq : padBuffer d rest = padBuffer d rest') : rest'.length ≤ rest.length := by
  by_contra hlt
  have hzero : (padBuffer d rest)[rest'.length]? = some 0 :=
    getElem?_padBuffer_of_gt (Nat.lt_of_not_le hlt) h
  rw [heq, getElem?_padBuffer_length] at hzero
  exact absurd hzero (by decide)

/-- The position of the 0x01 gives the number of bytes before it, and so the bytes (R109). -/
theorem padBuffer_injOn (h : rest.length < d.superBytes) (h' : rest'.length < d.superBytes)
    (heq : padBuffer d rest = padBuffer d rest') : rest = rest' := by
  have hlen : rest.length = rest'.length :=
    Nat.le_antisymm (length_le_of_padBuffer_eq h heq.symm) (length_le_of_padBuffer_eq h' heq)
  simp only [padBuffer, List.append_assoc] at heq
  exact List.append_inj_left heq hlen

/-- What the full superblocks leave over does not fill another one (R106). -/
theorem length_drop_lt_superBytes (d : Degree) (m : List Byte) :
    (m.drop (m.length / d.superBytes * d.superBytes)).length < d.superBytes := by
  rw [List.length_drop, ← Nat.mod_eq_sub_div_mul]
  exact Nat.mod_lt _ (Degree.superBytes_pos d)

end Superblocks

/-- Settles O20: the full superblocks are the front of the message, and the padded one fixes the
rest. -/
theorem paddingIsInjective : Obligations.PaddingIsInjective := by
  intro d m m' h
  obtain ⟨hfull, hpad⟩ := List.append_inj' h rfl
  have hfront := congrArg List.flatten hfull
  rw [flatten_slices, flatten_slices] at hfront
  have hrest := padBuffer_injOn (length_drop_lt_superBytes d m) (length_drop_lt_superBytes d m')
    (List.singleton_inj.1 hpad)
  rw [← List.take_append_drop (m.length / d.superBytes * d.superBytes) m, hfront, hrest,
    List.take_append_drop]

section RollingRegister

variable (w : Working)

/-- The update of the rolling register reads the four old values (R102). -/
theorem roundStep_rolling (a0 a1 a2 a3 : Wide) :
    ((roundStep w a0 a1 a2 a3).rr, (roundStep w a0 a1 a2 a3).r0, (roundStep w a0 a1 a2 a3).r1,
      (roundStep w a0 a1 a2 a3).r2) = (a2, wideXor w.rr a1, w.r0, w.r1) := rfl

/-- The rolling register keys `S[3]` with its values from before the round (R102). -/
theorem roundStep_s_three (a0 a1 a2 a3 : Wide) :
    (roundStep w a0 a1 a2 a3).s[3] = wideAesRound w.s[2] (wideXor w.r1 w.r2) := by
  simp [roundStep_s]

/-- After two rounds `R1` has come from `RR` and `R2` from `R0`; the second round's own operands have
not reached them (R102). -/
theorem wideXor_r1_r2_of_two_rounds (a0 a1 a2 a3 b0 b1 b2 b3 : Wide) :
    wideXor (roundStep (roundStep w a0 a1 a2 a3) b0 b1 b2 b3).r1
        (roundStep (roundStep w a0 a1 a2 a3) b0 b1 b2 b3).r2 =
      wideXor (wideXor w.rr a1) w.r0 := by
  simp

/-- From the start of a MAC the first M1 reaches `R0` unchanged, over zeros (R102). -/
theorem roundStep_workingStart_rolling {d : Degree} (init : Vector Wide 9) {a1 : Wide}
    (a0 a2 a3 : Wide) (h : WideShaped d a1) :
    ((roundStep (workingStart d init) a0 a1 a2 a3).rr,
      (roundStep (workingStart d init) a0 a1 a2 a3).r0,
      (roundStep (workingStart d init) a0 a1 a2 a3).r1,
      (roundStep (workingStart d init) a0 a1 a2 a3).r2) = (a2, a1, wideZero d, wideZero d) := by
  have hm1 : wideXor (wideZero d) a1 = a1 := by rw [wideXor_comm, wideXor_wideZero h]
  simp [hm1]

end RollingRegister

/-- Settles O40: the law of two rounds, taken at the first, the second and the third of four rounds;
then over the zero start, where only the first M1 is left of its sum. -/
theorem rollingRegisterCarriesEarlierBlocks : Obligations.RollingRegisterCarriesEarlierBlocks := by
  refine ⟨fun w a0 a1 a2 a3 b0 b1 b2 b3 c0 c1 c2 c3 e0 e1 e2 e3 => ?_,
    fun d init a0 a1 a2 a3 b0 b1 b2 b3 h => ?_⟩
  · intro w1 w2 w3 w4
    exact ⟨roundStep_rolling w a0 a1 a2 a3, roundStep_s_three w a0 a1 a2 a3,
      wideXor_r1_r2_of_two_rounds w a0 a1 a2 a3 b0 b1 b2 b3,
      wideXor_r1_r2_of_two_rounds w1 b0 b1 b2 b3 c0 c1 c2 c3,
      wideXor_r1_r2_of_two_rounds w2 c0 c1 c2 c3 e0 e1 e2 e3⟩
  · intro w0 w1 w2
    have hzero : wideXor (wideZero d) (wideZero d) = wideZero d :=
      wideXor_wideZero (length_wideZero d)
    have hround1 := roundStep_workingStart_rolling init a0 a2 a3 h
    have hr1 : w2.r1 = a1 := congrArg (·.2.1) hround1
    have hr2 : w2.r2 = wideZero d := congrArg (·.2.2.1) hround1
    refine ⟨hzero, hround1, hzero, hr1, ?_⟩
    rw [hr1, hr2, wideXor_wideZero h]

section Start

variable {s t : State}

/-- The phase that absorbs first goes by the whole length (R104). -/
theorem absorbPhase_zero (d : Degree) (len : Nat) :
    absorbPhase d len 0 = if len ≥ 64 * d.lanes then .full else .pad := rfl

theorem exec_pStart (s : State) :
    exec .pStart s = .next
      { s with
        work := workingStart s.degree s.ctx.initState
        pos := 0
        phase := absorbPhase s.degree s.len 0 } := rfl

/-- MAC, accepted, enters P_START (R123). -/
theorem phase_of_exec_mac (h : exec .mac s = .next t) : t.phase = .start := by
  obtain ⟨-, -, rfl⟩ := execMac_next h
  rfl

end Start

/-- Settles O38: P_START seeds the working registers and chooses the first absorbing phase. -/
theorem startSeedsTheWorkingRegisters : Obligations.StartSeedsTheWorkingRegisters := by
  refine ⟨rfl, fun _ _ => phase_of_exec_mac, fun s => ?_⟩
  rw [exec_pStart, absorbPhase_zero, workingStart]

end Sys2Proof.Proofs
end

section
/-! PROOFS. 45_commands.md on whole commands: a run of host actions composes from the steps it takes
(log 5), INIT leaves the context of its key (R97, R122), a MAC leaves the tag of its message under the
context it found (R123, R124), and so one context serves any number of tags (R131). -/

namespace Sys2Proof.Proofs

open Sys2Proof.Machine Sys2Proof.Safety Sys2Proof.Laws

section Runs

variable {M : Host.Core} {s t u : State} {as bs : List HostAction} {a : HostAction}

/-- A run continues from where its first steps went. -/
theorem run_add_of_run_eq_next {m : Nat} {x y : M.State} (h : M.run m x = .next y) (n : Nat) :
    M.run (m + n) x = M.run n y := by
  induction m generalizing x with
  | zero =>
    cases h
    rw [Nat.zero_add]
  | succ m ih =>
    rw [Nat.succ_add]
    simp only [Host.Core.run] at h ⊢
    split at h
    · exact ih h
    · cases h
    · cases h

/-- The actions `as` take the core from `s` to `t`, one step each, whatever the host does after
them. -/
def Drives (s : State) (as : List HostAction) (t : State) : Prop :=
  ∀ rest, Sys2Proof.core.run as.length { s with host := as ++ rest } =
    .next { t with host := rest }

theorem Drives.nil (s : State) : Drives s [] s := fun _ => rfl

/-- One action that `hostStep` takes. -/
theorem drives_of_hostStep
    (h : ∀ rest, hostStep { s with host := rest } a = .next { t with host := rest }) :
    Drives s [a] t := by
  intro rest
  have hstep : Sys2Proof.core.step { s with host := [a] ++ rest } = .next { t with host := rest } :=
    h rest
  simp only [List.length_singleton, Host.Core.run, hstep]

theorem Drives.append (h : Drives s as t) (h' : Drives t bs u) : Drives s (as ++ bs) u := by
  intro rest
  rw [List.length_append, List.append_assoc]
  exact (run_add_of_run_eq_next (h (bs ++ rest)) bs.length).trans (h' rest)

theorem Drives.cons (h : Drives s [a] t) (h' : Drives t as u) : Drives s (a :: as) u :=
  h.append h'

/-- Steps of the sequencer one after the other. -/
theorem Drives.passes {m n : Nat} (h : Drives s (List.replicate m .pass) t)
    (h' : Drives t (List.replicate n .pass) u) : Drives s (List.replicate (m + n) .pass) u := by
  rw [List.replicate_add]
  exact h.append h'

/-- A loop of the sequencer: `n` steps through the states `f 0` to `f n`. -/
theorem drives_loop {n : Nat} (f : Fin (n + 1) → State)
    (h : ∀ i : Fin n, Drives (f i.castSucc) (List.replicate 1 .pass) (f i.succ)) :
    Drives (f 0) (List.replicate n .pass) (f (Fin.last n)) :=
  Fin.induction (motive := fun i => Drives (f 0) (List.replicate i.val .pass) (f i)) (.nil _)
    (fun i ih => ih.passes (h i)) (Fin.last n)

/-- The run of exactly these actions. -/
theorem Drives.runHost_eq (h : Drives s as t) : runHost s as = .next { t with host := [] } := by
  have hrun := h []
  rwa [List.append_nil] at hrun

/-- The sequencer runs the operation of PHASE when no unit operation is issued (R64, R124). -/
theorem drives_pass {i : Instr} (hsel : s.unit.sel = none)
    (hphase : decodeP4 (phaseCode s.phase) = .ok i)
    (hexec : ∀ rest, exec i { s with host := rest } = .next { t with host := rest }) :
    Drives s (List.replicate 1 .pass) t := by
  refine drives_of_hostStep fun rest => ?_
  rw [hostStep_pass, internalStep]
  simp only [hsel, hphase, hexec]

/-- A command that is accepted (R121). -/
theorem drives_command {i : Instr} {p : Ports} (hcmd : decodeH p.cmd = .ok i)
    (hexec : ∀ rest, exec i { s with host := rest, ports := p, answer := some .accepted } =
      .next { t with host := rest }) :
    Drives s [.command p] t := by
  refine drives_of_hostStep fun rest => ?_
  rw [hostStep_command, hostCommand]
  simp only [hcmd, hexec, settle]

/-- `t` has the degree, the context and the round unit's wires of `s` (R24). -/
structure KeepsContext (s t : State) : Prop where
  degree : t.degree = s.degree
  ctx : t.ctx = s.ctx
  ctxValid : t.ctxValid = s.ctxValid
  unit : t.unit = s.unit

theorem KeepsContext.trans (h : KeepsContext s t) (h' : KeepsContext t u) : KeepsContext s u :=
  ⟨h'.degree.trans h.degree, h'.ctx.trans h.ctx, h'.ctxValid.trans h.ctxValid,
    h'.unit.trans h.unit⟩

end Runs

section Absorption

variable {s : State} {m : List Byte}

/-- `MemRead` inside a captured message answers its slice (R40). -/
theorem memRead_eq_slice {a n : Nat} (hlen : s.len = m.length) (hmsg : Holds s.msg m)
    (h : a + n ≤ m.length) : memRead s a n = some (slice m a n) := by
  refine memRead_eq_some.2 ⟨hlen ▸ h, length_slice h, fun j hj => ?_⟩
  rw [hmsg _ (by omega), getElem?_slice m a n j hj]

/-- `MemRead` of all that is left answers the rest of the message. -/
theorem memRead_rest_eq_drop {a : Nat} (hlen : s.len = m.length) (hmsg : Holds s.msg m)
    (h : a ≤ m.length) : memRead s a (s.len - a) = some (m.drop a) := by
  have hrest : slice m a (m.length - a) = m.drop a := by
    rw [slice, ← List.length_drop, List.take_length]
  rw [hlen, memRead_eq_slice hlen hmsg (by omega), hrest]

/-- What a capture holds of a message that was supplied whole (R50). -/
theorem holds_capture {mem : Memory} (draw : Nat) (h : Holds mem m) :
    Holds (mem.capture m.length draw) m := by
  intro a ha
  rw [Memory.read_capture, if_pos ha, h a ha, List.getElem?_eq_getElem ha]
  rfl

/-- The core in a MAC of the message `m` with `q` full superblocks absorbed (R104, R105). -/
def absorbing (s : State) (m : List Byte) (q : Nat) : State :=
  { s with
    work := ((List.range q).map fun i => slice m (i * s.degree.superBytes) s.degree.superBytes).foldl
      (roundOn s.degree) (workingStart s.degree s.ctx.initState)
    pos := q * s.degree.superBytes
    phase := absorbPhase s.degree s.len (q * s.degree.superBytes) }

theorem absorbing_work_succ (q : Nat) :
    (absorbing s m (q + 1)).work =
      roundOn s.degree (absorbing s m q).work
        (slice m (q * s.degree.superBytes) s.degree.superBytes) := by
  simp only [absorbing, List.range_succ, List.map_append, List.foldl_append, List.map_singleton,
    List.foldl_cons, List.foldl_nil]

theorem drives_pStart (hsel : s.unit.sel = none) (hphase : s.phase = .start) :
    Drives s (List.replicate 1 .pass) (absorbing s m 0) := by
  refine drives_pass (i := .pStart) hsel (by rw [hphase]; rfl) fun rest => ?_
  rw [exec_pStart]
  simp [absorbing]

/-- P_FULL absorbs superblock `q`, as long as the message has one (R105). -/
theorem drives_pFull {q : Nat} (hsel : s.unit.sel = none) (hlen : s.len = m.length)
    (hmsg : Holds s.msg m) (hq : q < m.length / s.degree.superBytes) :
    Drives (absorbing s m q) (List.replicate 1 .pass) (absorbing s m (q + 1)) := by
  have hend : q * s.degree.superBytes + s.degree.superBytes ≤ m.length := by
    rw [← Nat.succ_mul]
    exact (Nat.mul_le_mul_right _ hq).trans (Nat.div_mul_le_self _ _)
  have hphase : (absorbing s m q).phase = .full := if_pos (by omega)
  refine drives_pass (i := .pFull) hsel (by rw [hphase]; rfl) fun rest => ?_
  have hread : memRead { absorbing s m q with host := rest } (q * s.degree.superBytes)
      s.degree.superBytes = some (slice m (q * s.degree.superBytes) s.degree.superBytes) :=
    memRead_eq_slice hlen hmsg hend
  have hwork := absorbing_work_succ (s := s) (m := m) q
  simp only [absorbing] at hread hwork
  simp only [exec, execPFull, absorbing, hread, hwork, Nat.succ_mul]

/-- P_FULL runs once for each full superblock. -/
theorem drives_fullSuperblocks (hsel : s.unit.sel = none) (hlen : s.len = m.length)
    (hmsg : Holds s.msg m) :
    Drives (absorbing s m 0) (List.replicate (m.length / s.degree.superBytes) .pass)
      (absorbing s m (m.length / s.degree.superBytes)) :=
  drives_loop (fun q => absorbing s m q.val) fun q => drives_pFull hsel hlen hmsg q.isLt

/-- Every superblock of the message absorbed, before the blank rounds (R106). -/
def absorbed (s : State) (m : List Byte) : State :=
  { absorbing s m (m.length / s.degree.superBytes) with
    work := (superblocks s.degree m).foldl (roundOn s.degree)
      (workingStart s.degree s.ctx.initState)
    cnt := 0
    phase := .blank }

theorem absorbed_work :
    (absorbed s m).work =
      roundOn s.degree (absorbing s m (m.length / s.degree.superBytes)).work
        (padBuffer s.degree (m.drop (m.length / s.degree.superBytes * s.degree.superBytes))) := by
  simp only [absorbed, absorbing, superblocks, List.foldl_append, List.foldl_cons, List.foldl_nil]

/-- P_PAD absorbs what the full superblocks leave over (R106). -/
theorem drives_pPad (hsel : s.unit.sel = none) (hlen : s.len = m.length) (hmsg : Holds s.msg m) :
    Drives (absorbing s m (m.length / s.degree.superBytes)) (List.replicate 1 .pass)
      (absorbed s m) := by
  have htail : s.len - m.length / s.degree.superBytes * s.degree.superBytes <
      s.degree.superBytes := by
    rw [hlen, ← List.length_drop]
    exact length_drop_lt_superBytes s.degree m
  have hphase : (absorbing s m (m.length / s.degree.superBytes)).phase = .pad :=
    if_neg (Nat.not_le_of_lt htail)
  refine drives_pass (i := .pPad) hsel (by rw [hphase]; rfl) fun rest => ?_
  have hread := memRead_rest_eq_drop
    (s := { absorbing s m (m.length / s.degree.superBytes) with host := rest }) hlen hmsg
    (Nat.div_mul_le_self m.length s.degree.superBytes)
  have hwork := absorbed_work (s := s) (m := m)
  simp only [absorbing, absorbed] at hread hwork
  simp only [exec, execPPad, absorbing, absorbed, hread, hwork]
  exact if_pos htail

/-- The core in P_BLANK with `CNT = i`: as many blank rounds are done (R107). -/
def blanking (s : State) (i : Fin 4) : State :=
  { s with work := (roundBlank s.degree)^[i.val] s.work, cnt := i, phase := .blank }

/-- All four blank rounds done. -/
def blanked (s : State) : State :=
  { s with work := (roundBlank s.degree)^[4] s.work, cnt := 3, idx := 0, phase := .mod }

theorem drives_pBlank (hsel : s.unit.sel = none) (i : Fin 3) :
    Drives (blanking s i.castSucc) (List.replicate 1 .pass) (blanking s i.succ) := by
  refine drives_pass (i := .pBlank) hsel rfl fun rest => ?_
  have hcnt : i.castSucc ≠ 3 := i.castSucc_ne_last
  have hwork : (roundBlank s.degree)^[i.succ.val] s.work =
      roundBlank s.degree ((roundBlank s.degree)^[i.castSucc.val] s.work) :=
    Function.iterate_succ_apply' _ _ _
  simp only [exec, execPBlank, blanking, if_neg hcnt, hwork, Fin.coeSucc_eq_succ]

theorem drives_pBlank_last (hsel : s.unit.sel = none) :
    Drives (blanking s 3) (List.replicate 1 .pass) (blanked s) :=
  drives_pass (i := .pBlank) hsel rfl fun _ => rfl

/-- The four blank rounds (R107). -/
theorem drives_blankRounds (hsel : s.unit.sel = none) :
    Drives (blanking s 0) (List.replicate 4 .pass) (blanked s) :=
  (drives_loop (blanking s) (drives_pBlank hsel)).passes (drives_pBlank_last hsel)

/-- The state blocks a MAC ends its absorption with are those of ABSORB (R108). -/
theorem blanked_absorbed_s :
    (blanked (absorbed s m)).work.s = absorb s.degree s.ctx.initState m := rfl

theorem blanked_absorbed_keepsContext : KeepsContext s (blanked (absorbed s m)) := by
  constructor <;> simp only [blanked, absorbed, absorbing]

/-- P_START to the last blank round: `floor(L / SB) + 6` steps (R124). -/
theorem drives_absorption (hsel : s.unit.sel = none) (hphase : s.phase = .start)
    (hlen : s.len = m.length) (hmsg : Holds s.msg m) :
    Drives s (List.replicate (m.length / s.degree.superBytes + 6) .pass)
      (blanked (absorbed s m)) := by
  have hstart := drives_pStart (m := m) hsel hphase
  have hfull := hstart.passes (drives_fullSuperblocks hsel hlen hmsg)
  have hpad := hfull.passes (drives_pPad hsel hlen hmsg)
  have hblank := hpad.passes (drives_blankRounds (s := absorbed s m) hsel)
  have hsteps : 1 + m.length / s.degree.superBytes + 1 + 4 = m.length / s.degree.superBytes + 6 := by
    omega
  rwa [hsteps] at hblank

end Absorption

section Finalization

variable {s : State}

/-- The first `k + 1` terms of the sum of the finalization (R113). -/
def modPartial (d : Degree) (subkey : Vector Wide 18) (blocks : Vector Wide 9) (k : Nat) : Wide :=
  ((List.finRange 9).tail.take k).foldl
    (fun t i => wideXor t (aesMod d subkey i blocks[i.val])) (aesMod d subkey 0 blocks[0])

theorem modPartial_eight (d : Degree) (subkey : Vector Wide 18) (blocks : Vector Wide 9) :
    modPartial d subkey blocks 8 = modSum d subkey blocks := rfl

theorem modPartial_succ (d : Degree) (subkey : Vector Wide 18) (blocks : Vector Wide 9)
    (i : Fin 8) :
    modPartial d subkey blocks (i.val + 1) =
      wideXor (modPartial d subkey blocks i.val) (aesMod d subkey i.succ blocks[i.succ.val]) := by
  have hterm : (List.finRange 9).tail[i.val]? = some i.succ := by
    revert i
    decide
  rw [modPartial, List.take_add_one, hterm, List.foldl_append]
  rfl

/-- The term that P_MOD computes at `IDX` (R113). -/
def modTerm (s : State) : Wide := aesMod s.degree s.ctx.subkey s.idx s.work.s[s.idx.val]

/-- P_MOD at `IDX = 0` starts the sum. -/
theorem drives_pMod_first (hsel : s.unit.sel = none) (hphase : s.phase = .mod) (hidx : s.idx = 0) :
    Drives s (List.replicate 1 .pass)
      { s with t := modTerm s, idx := s.idx + 1, phase := .mod } := by
  have hlast : s.idx ≠ 8 := hidx ▸ by decide
  refine drives_pass (i := .pMod) hsel (by rw [hphase]; rfl) fun rest => ?_
  simp only [exec, execPMod, if_neg hlast, if_pos hidx, modTerm]

theorem drives_pMod_inner (hsel : s.unit.sel = none) (hphase : s.phase = .mod) (hfirst : s.idx ≠ 0)
    (hlast : s.idx ≠ 8) :
    Drives s (List.replicate 1 .pass)
      { s with t := wideXor s.t (modTerm s), idx := s.idx + 1, phase := .mod } := by
  refine drives_pass (i := .pMod) hsel (by rw [hphase]; rfl) fun rest => ?_
  simp only [exec, execPMod, if_neg hlast, if_neg hfirst, modTerm]

theorem drives_pMod_last (hsel : s.unit.sel = none) (hphase : s.phase = .mod) (hidx : s.idx = 8) :
    Drives s (List.replicate 1 .pass) { s with t := wideXor s.t (modTerm s), phase := .fold } := by
  have hfirst : s.idx ≠ 0 := hidx ▸ by decide
  refine drives_pass (i := .pMod) hsel (by rw [hphase]; rfl) fun rest => ?_
  simp only [exec, execPMod, if_pos hidx, if_neg hfirst, modTerm]

/-- The core in P_MOD with `IDX = i + 1`: T is the sum of the terms of smaller index (R113). -/
def summing (s : State) (i : Fin 8) : State :=
  { s with t := modPartial s.degree s.ctx.subkey s.work.s i.val, idx := i.succ, phase := .mod }

/-- All nine state blocks folded into T. -/
def summed (s : State) : State :=
  { s with t := modSum s.degree s.ctx.subkey s.work.s, idx := 8, phase := .fold }

theorem modPartial_succ_eq_wideXor_modTerm (i : Fin 8) :
    modPartial s.degree s.ctx.subkey s.work.s (i.val + 1) =
      wideXor (summing s i).t (modTerm (summing s i)) :=
  modPartial_succ s.degree s.ctx.subkey s.work.s i

theorem summing_succ (i : Fin 7) :
    summing s i.succ =
      { summing s i.castSucc with
        t := wideXor (summing s i.castSucc).t (modTerm (summing s i.castSucc))
        idx := (summing s i.castSucc).idx + 1
        phase := .mod } := by
  have hidx : i.succ.succ = i.castSucc.succ + 1 := by
    revert i
    decide
  rw [← modPartial_succ_eq_wideXor_modTerm]
  simp only [summing, hidx, Fin.val_succ, Fin.val_castSucc]

theorem summing_zero (hidx : s.idx = 0) :
    summing s 0 = { s with t := modTerm s, idx := s.idx + 1, phase := .mod } := by
  simp only [modTerm, hidx]
  rfl

theorem summed_eq :
    summed s =
      { summing s 7 with t := wideXor (summing s 7).t (modTerm (summing s 7)), phase := .fold } := by
  have hsum : modSum s.degree s.ctx.subkey s.work.s =
      wideXor (summing s 7).t (modTerm (summing s 7)) :=
    (modPartial_eight _ _ _).symm.trans (modPartial_succ_eq_wideXor_modTerm 7)
  rw [← hsum]
  simp only [summed, summing]
  rfl

/-- The nine steps of P_MOD (R113). -/
theorem drives_modSum (hsel : s.unit.sel = none) (hphase : s.phase = .mod) (hidx : s.idx = 0) :
    Drives s (List.replicate 9 .pass) (summed s) := by
  have hfirst : Drives s (List.replicate 1 .pass) (summing s 0) :=
    summing_zero hidx ▸ drives_pMod_first hsel hphase hidx
  have hinner : ∀ i : Fin 7,
      Drives (summing s i.castSucc) (List.replicate 1 .pass) (summing s i.succ) := fun i => by
    have hnotFirst : (summing s i.castSucc).idx ≠ 0 := Fin.succ_ne_zero i.castSucc
    have hnotLast : (summing s i.castSucc).idx ≠ 8 :=
      (Fin.succ_castSucc i).trans_ne (Fin.castSucc_ne_last i.succ)
    rw [summing_succ]
    exact drives_pMod_inner hsel rfl hnotFirst hnotLast
  have hlast : Drives (summing s 7) (List.replicate 1 .pass) (summed s) :=
    summed_eq (s := s) ▸ drives_pMod_last hsel rfl rfl
  exact (hfirst.passes (drives_loop (summing s) hinner)).passes hlast

/-- The core after P_FOLD (R114). -/
def folded (s : State) : State := { s with t128 := foldLanes s.degree s.t, phase := .nonce }

theorem drives_pFold (hsel : s.unit.sel = none) (hphase : s.phase = .fold) :
    Drives s (List.replicate 1 .pass) (folded s) :=
  drives_pass (i := .pFold) hsel (by rw [hphase]; rfl) fun _ => rfl

/-- The core after P_NONCE (R115). -/
def nonceMixed (s : State) : State :=
  { s with
    nEnc := aesEncrypt s.ctx.nonceKey s.nonce
    t128 := mixNonce s.t128 s.nonce (aesEncrypt s.ctx.nonceKey s.nonce)
    phase := .emit }

theorem drives_pNonce (hsel : s.unit.sel = none) (hphase : s.phase = .nonce) :
    Drives s (List.replicate 1 .pass) (nonceMixed s) :=
  drives_pass (i := .pNonce) hsel (by rw [hphase]; rfl) fun _ => rfl

/-- The core after P_EMIT: the tag, and registers that hold no value (R116). -/
def emitted (s : State) : State :=
  { s with
    tagOut := aesEncrypt s.ctx.finalKey s.t128
    tagValid := true
    phase := .idle
    nonce := freeBlock s 44
    len := freeNat s 49
    work := freeWorking s
    t := freeWide s 40
    t128 := freeBlock s 41
    nEnc := freeBlock s 42
    freeDraws := s.freeDraws + 1 }

theorem drives_pEmit (hsel : s.unit.sel = none) (hphase : s.phase = .emit) :
    Drives s (List.replicate 1 .pass) (emitted s) :=
  drives_pass (i := .pEmit) hsel (by rw [hphase]; rfl) fun _ => rfl

/-- The core after P_MOD to P_EMIT. -/
def finalized (s : State) : State := emitted (nonceMixed (folded (summed s)))

/-- P_MOD to P_EMIT: twelve steps (R124). -/
theorem drives_finalization (hsel : s.unit.sel = none) (hphase : s.phase = .mod)
    (hidx : s.idx = 0) : Drives s (List.replicate 12 .pass) (finalized s) := by
  have hfold := (drives_modSum hsel hphase hidx).passes (drives_pFold (s := summed s) hsel rfl)
  have hnonce := hfold.passes (drives_pNonce (s := folded (summed s)) hsel rfl)
  exact hnonce.passes (drives_pEmit (s := nonceMixed (folded (summed s))) hsel rfl)

theorem finalized_keepsContext : KeepsContext s (finalized s) := by
  constructor <;> simp only [finalized, emitted, nonceMixed, folded, summed]

/-- The tag is the one FINALIZE gives (R117). -/
theorem finalized_tagOut :
    (finalized s).tagOut = finalize s.degree s.ctx s.work.s s.nonce := by
  simp only [finalized, emitted, nonceMixed, folded, summed, finalize]

end Finalization

section Commands

variable {s t : State} {d : Degree} {ctx : Context} {p : Ports} {m : List Byte}

/-- A waiting core of degree `d` with the context `ctx` (R121). -/
structure WaitsWith (d : Degree) (ctx : Context) (s : State) : Prop where
  waiting : Waiting s
  degree : s.degree = d
  ctx : s.ctx = ctx
  ctxValid : s.ctxValid = true

theorem WaitsWith.of_keepsContext (h : WaitsWith d ctx s) (hkeeps : KeepsContext s t)
    (hidle : t.phase = .idle) : WaitsWith d ctx t where
  waiting := ⟨hidle, hkeeps.unit ▸ h.waiting.2⟩
  degree := hkeeps.degree.trans h.degree
  ctx := hkeeps.ctx.trans h.ctx
  ctxValid := hkeeps.ctxValid.trans h.ctxValid

/-- A waiting core with a context and a tag to read (R126). -/
structure HasTag (d : Degree) (ctx : Context) (tag : Block128) (s : State) : Prop
    extends WaitsWith d ctx s where
  tagValid : s.tagValid = true
  tagOut : s.tagOut = tag

theorem drives_init_command (hidle : s.phase = .idle) (hcmd : p.cmd = 0x01) :
    Drives s [.command p]
      { s with
        ports := p
        answer := some .accepted
        k := blockOfPort p.keyIn
        ctxValid := false
        tagValid := false
        phase := .ks
        ctx := freeContext s
        tagOut := freeBlock s 45
        freeDraws := s.freeDraws + 1 } := by
  refine drives_command (i := .init) (by rw [hcmd]; rfl) fun rest => ?_
  simp only [exec, execInit, busy, hidle]
  rfl

theorem drives_pKs (hsel : s.unit.sel = none) (hphase : s.phase = .ks) :
    Drives s (List.replicate 1 .pass)
      { s with
        ctx := contextOf s.degree s.k
        ctxValid := true
        phase := .idle
        k := freeBlock s 43
        eK := freeSched s 48
        freeDraws := s.freeDraws + 1 } :=
  drives_pass (i := .pKs) hsel (by rw [hphase]; rfl) fun _ => rfl

/-- INIT and its one sequencer step leave the context of the key, whatever the core held (R97,
R122). -/
theorem drives_init (h : Waiting s) (hcmd : p.cmd = 0x01) :
    ∃ t, Drives s [.command p, .pass] t ∧
      WaitsWith s.degree (contextOf s.degree (blockOfPort p.keyIn)) t := by
  obtain ⟨hidle, hsel⟩ := h
  exact ⟨_, (drives_init_command hidle hcmd).cons (drives_pKs hsel rfl), ⟨rfl, hsel⟩, rfl, rfl,
    rfl⟩

/-- The core after it accepted MAC with the operands `p` (R50, R123). -/
def macAccepted (s : State) (p : Ports) : State :=
  { s with
    ports := p
    answer := some .accepted
    nonce := blockOfPort p.nonceIn
    len := p.msgLen
    msg := p.msg.capture p.msgLen s.freeDraws
    tagValid := false
    phase := .start
    tagOut := freeBlock s 45
    freeDraws := s.freeDraws + 1 }

theorem drives_mac_command (hidle : s.phase = .idle) (hctx : s.ctxValid = true)
    (hcmd : p.cmd = 0x02) : Drives s [.command p] (macAccepted s p) := by
  refine drives_command (i := .mac) (by rw [hcmd]; rfl) fun rest => ?_
  simp only [exec, execMac, busy, hidle, hctx, macAccepted]
  rfl

theorem macAccepted_keepsContext : KeepsContext s (macAccepted s p) := ⟨rfl, rfl, rfl, rfl⟩

/-- The core after the MAC of the message `m` that it accepts with the operands `p`. -/
def macCompleted (s : State) (p : Ports) (m : List Byte) : State :=
  finalized (blanked (absorbed (macAccepted s p) m))

theorem macCompleted_keepsContext : KeepsContext s (macCompleted s p m) :=
  (macAccepted_keepsContext.trans blanked_absorbed_keepsContext).trans finalized_keepsContext

/-- The stages of a MAC compute the reference `mac_D` (R128). -/
theorem macCompleted_tagOut :
    (macCompleted s p m).tagOut = macOf s.degree s.ctx m (blockOfPort p.nonceIn) := by
  rw [macCompleted, finalized_tagOut, blanked_absorbed_s]
  rfl

/-- From its acceptance a MAC takes `floor(L / SB) + 18` steps (R123, R124). -/
theorem drives_macCompleted (h : Waiting s) (hctx : s.ctxValid = true) (hcmd : p.cmd = 0x02)
    (hlen : p.msgLen = m.length) (hmsg : Holds p.msg m) :
    Drives s (.command p :: List.replicate (macSteps s.degree m) .pass) (macCompleted s p m) := by
  obtain ⟨hidle, hsel⟩ := h
  have hcaptured : Holds (macAccepted s p).msg m := by
    rw [macAccepted, hlen]
    exact holds_capture s.freeDraws hmsg
  have habsorb : Drives (macAccepted s p) _ _ := drives_absorption hsel rfl hlen hcaptured
  have hfinal : Drives (blanked (absorbed (macAccepted s p) m)) _ _ :=
    drives_finalization hsel rfl rfl
  exact (drives_mac_command hidle hctx hcmd).cons (habsorb.passes hfinal)

/-- A MAC leaves the tag of its message under the context, and the context as it was (R24, R128). -/
theorem drives_mac (h : WaitsWith d ctx s) (hcmd : p.cmd = 0x02) (hlen : p.msgLen = m.length)
    (hmsg : Holds p.msg m) :
    ∃ t, Drives s (.command p :: List.replicate (macSteps d m) .pass) t ∧
      HasTag d ctx (macOf d ctx m (blockOfPort p.nonceIn)) t := by
  have hwaits := h.of_keepsContext (t := macCompleted s p m) macCompleted_keepsContext rfl
  obtain ⟨hwaiting, rfl, rfl, hctx⟩ := h
  exact ⟨_, drives_macCompleted hwaiting hctx hcmd hlen hmsg, hwaits, rfl, macCompleted_tagOut⟩

/-- INIT of a key, seen from what the host does (R128). -/
theorem drives_initTrace (h : Waiting s) (key : Block128) :
    ∃ t, Drives s (initTrace key) t ∧
      WaitsWith s.degree (contextOf s.degree (blockOfPort (portOfBlock key))) t :=
  drives_init h rfl

/-- A MAC of a message, seen from what the host does (R128). -/
theorem drives_macTrace (h : WaitsWith d ctx s) (nonce : Block128) (m : List Byte) :
    ∃ t, Drives s (macTrace d nonce m) t ∧
      HasTag d ctx (macOf d ctx m (blockOfPort (portOfBlock nonce))) t :=
  drives_mac h rfl rfl fun a _ => Memory.read_ofBytes m a

end Commands

/-- Settles O59: after INIT the tag of a MAC is `mac_D` of the key's context, the message and the nonce,
and the MAC leaves the context as it found it, so the second MAC starts from what INIT left. -/
theorem contextReuseGivesTheSameTags : Obligations.ContextReuseGivesTheSameTags := by
  intro s s' s'' key n1 n2 m1 m2 hs hs' hs'' hdegree' hdegree''
  obtain ⟨r, hinit, hr⟩ := drives_initTrace hs key
  obtain ⟨r', hinit', hr'⟩ := drives_initTrace hs' key
  obtain ⟨r'', hinit'', hr''⟩ := drives_initTrace hs'' key
  rw [← hdegree'] at hr'
  rw [← hdegree''] at hr''
  obtain ⟨t1, hmac1, ht1⟩ := drives_macTrace hr n1 m1
  obtain ⟨t2, hmac2, ht2⟩ := drives_macTrace ht1.toWaitsWith n2 m2
  obtain ⟨u1, hmac1', hu1⟩ := drives_macTrace hr' n1 m1
  obtain ⟨u2, hmac2', hu2⟩ := drives_macTrace hr'' n2 m2
  exact ⟨_, _, _, _, (hinit.append hmac1).runHost_eq,
    (hinit.append (hmac1.append hmac2)).runHost_eq, (hinit'.append hmac1').runHost_eq,
    (hinit''.append hmac2').runHost_eq, ht1.tagValid, ht2.tagValid, hu1.tagValid, hu2.tagValid,
    ht1.tagOut.trans hu1.tagOut.symm, ht2.tagOut.trans hu2.tagOut.symm⟩

end Sys2Proof.Proofs
end

section
/-! PROOFS. What every operation and every step leaves alone, said once: the frame of an operation,
and where a step gets its operation from (45_commands.md R119, R121; 30_encoding.md R66). From it the
whole-machine rules: the degree (R11), the message space (R41), the tag (R126). -/

-- As in the tests, each theorem is checked in place: one that waits for the kernel beside the others
-- costs a thread, and so memory.
set_option Elab.async false

namespace Sys2Proof.Proofs

open Sys2Proof.Machine Sys2Proof.Safety Sys2Proof.Laws

section Frames

variable {s t : State} {i : Instr}

/-- What the operation `i`, taking `s` to `t`, leaves as it is. -/
structure OperationFrame (i : Instr) (s t : State) : Prop where
  degree : t.degree = s.degree
  host : t.host = s.host
  answer : t.answer = s.answer
  ports : t.ports = s.ports
  sel : t.unit.sel = s.unit.sel
  msg : i ≠ .mac → t.msg = s.msg
  tag : i ≠ .pEmit → t.tagValid = true → s.tagValid = true ∧ t.tagOut = s.tagOut

/-- An operation that writes neither the message nor the tag. -/
theorem OperationFrame.of_kept (hdegree : t.degree = s.degree) (hhost : t.host = s.host)
    (hanswer : t.answer = s.answer) (hports : t.ports = s.ports)
    (hsel : t.unit.sel = s.unit.sel) (hmsg : t.msg = s.msg) (htag : t.tagValid = s.tagValid)
    (hout : t.tagOut = s.tagOut) : OperationFrame i s t :=
  ⟨hdegree, hhost, hanswer, hports, hsel, fun _ => hmsg, fun _ h => ⟨htag ▸ h, hout⟩⟩

theorem exec_frame (h : exec i s = .next t) : OperationFrame i s t := by
  cases i with
  | init =>
    obtain ⟨-, rfl⟩ := execInit_next h
    exact ⟨rfl, rfl, rfl, rfl, rfl, fun _ => rfl, fun _ => nofun⟩
  | mac =>
    obtain ⟨-, -, rfl⟩ := execMac_next h
    exact ⟨rfl, rfl, rfl, rfl, rfl, fun hne => absurd rfl hne, fun _ => nofun⟩
  | pEmit =>
    cases h
    exact ⟨rfl, rfl, rfl, rfl, rfl, fun _ => rfl, fun hne => absurd rfl hne⟩
  | pFull =>
    obtain ⟨_, -, rfl⟩ := execPFull_next h
    exact .of_kept rfl rfl rfl rfl rfl rfl rfl rfl
  | pPad =>
    obtain ⟨_, -, -, rfl⟩ := execPPad_next h
    exact .of_kept rfl rfl rfl rfl rfl rfl rfl rfl
  | pBlank =>
    obtain ⟨-, rfl⟩ | ⟨-, rfl⟩ := execPBlank_next h <;>
      exact .of_kept rfl rfl rfl rfl rfl rfl rfl rfl
  | pMod =>
    obtain ⟨-, rfl⟩ | ⟨-, rfl⟩ := execPMod_next h <;>
      exact .of_kept rfl rfl rfl rfl rfl rfl rfl rfl
  | wload =>
    obtain ⟨-, rfl⟩ := execWload_next h
    exact .of_kept rfl rfl rfl rfl rfl rfl rfl rfl
  | pKs | pStart | pFold | pNonce | wzero | wxor | waesr | wstore | keyexp | aesenc =>
    cases h
    exact .of_kept rfl rfl rfl rfl rfl rfl rfl rfl

/-- No operation faults: a next state and a refusal are its two outcomes (R21). -/
theorem exec_ne_fault (i : Instr) (s : State) (f : Fault) : exec i s ≠ .fault f := by
  cases i with
  | init => simp only [exec, execInit]; split <;> simp
  | mac =>
    simp only [exec, execMac]
    split
    · simp
    · split <;> simp
  | pFull => simp only [exec, execPFull]; split <;> simp
  | pPad =>
    simp only [exec, execPPad]
    split
    · simp
    · split <;> simp
  | pBlank => simp only [exec, execPBlank]; split <;> simp
  | pMod => simp only [exec, execPMod]; split <;> simp
  | wload => simp only [exec, execWload]; split <;> simp
  | pKs | pStart | pFold | pNonce | pEmit | wzero | wxor | waesr | wstore | keyexp | aesenc =>
    exact nofun

/-- The operations of the phases are none of the commands, and only P_EMIT's runs P_EMIT (R64). -/
theorem phaseOperation_ne (h : decodeP4 (phaseCode s.phase) = .ok i) :
    i ≠ .mac ∧ (i = .pEmit → s.phase = .emit) := by
  obtain ⟨hp, rfl⟩ | ⟨hp, rfl⟩ | ⟨hp, rfl⟩ | ⟨hp, rfl⟩ | ⟨hp, rfl⟩ | ⟨hp, rfl⟩ | ⟨hp, rfl⟩ |
    ⟨hp, rfl⟩ | ⟨hp, rfl⟩ := decodeP4_phaseCode h
  case inr.inr.inr.inr.inr.inr.inr.inr => exact ⟨by decide, fun _ => hp⟩
  all_goals exact ⟨by decide, nofun⟩

/-- The operations of the round unit are none of the commands and none of the phases (R65). -/
theorem unitOperation_ne {c : BitVec 3} (h : decodeU3 c = .ok i) : i ≠ .mac ∧ i ≠ .pEmit := by
  obtain ⟨-, rfl⟩ | ⟨-, rfl⟩ | ⟨-, rfl⟩ | ⟨-, rfl⟩ | ⟨-, rfl⟩ | ⟨-, rfl⟩ | ⟨-, rfl⟩ :=
    decodeU3_ok h <;> decide

end Frames

section Sources

variable {s t : State}

/-- `s` with the host action of this step taken off the list. -/
def taken (s : State) : State := { s with host := s.host.tail }

/-- The core is left to itself in this step: no host action, or pass. -/
def LeftAlone (s : State) : Prop := s.host = [] ∨ ∃ rest, s.host = .pass :: rest

/-- Where a step from `s` to `t` comes from. -/
inductive StepSource (s t : State) : Prop where
  /-- P_IDLE takes no step (R121). -/
  | waits (hhost : LeftAlone s) (ht : t = taken s)
  /-- The operation of PHASE (R64). -/
  | phase (i : Instr) (hhost : LeftAlone s) (hi : decodeP4 (phaseCode s.phase) = .ok i)
      (hexec : exec i (taken s) = .next t)
  /-- The operation on the select wires (R65). -/
  | unit (c : BitVec 3) (i : Instr) (hhost : LeftAlone s) (hi : decodeU3 c = .ok i)
      (hexec : exec i { taken s with unit := { s.unit with sel := none } } = .next t)
  /-- A command that is accepted (R63). -/
  | command (p : Ports) (i : Instr) (hhost : ∃ rest, s.host = .command p :: rest)
      (hi : decodeH p.cmd = .ok i)
      (hexec : exec i { taken s with ports := p, answer := some .accepted } = .next t)
  /-- A command that is refused (R140). -/
  | refused (p : Ports) (r : Refusal) (hhost : ∃ rest, s.host = .command p :: rest)
      (hr : r = .reservedCommand ∨ ∃ i, decodeH p.cmd = .ok i ∧
        exec i { taken s with ports := p, answer := some .accepted } = .refused r)
      (ht : t = answered (taken s) (.refused r))
  /-- A read of the tag (R126). -/
  | readTag (hhost : ∃ rest, s.host = .readTag :: rest)
      (ht : t = answered (taken s) (readAnswer .tag (Machine.readTag s)))
  /-- A read of the information port (R127). -/
  | readInfo (index : Nat) (hhost : ∃ rest, s.host = .readInfo index :: rest)
      (ht : t = answered (taken s) (readAnswer .info (Machine.readInfo s index)))
  /-- Reset (R148). -/
  | reset (hhost : ∃ rest, s.host = .reset :: rest)
      (ht : t = answered (hostReset (taken s)) .resetDone)

theorem StepSource.of_internalStep (hhost : LeftAlone s) (h : internalStep (taken s) = .next t) :
    StepSource s t := by
  obtain ⟨c, i, -, hi, hexec⟩ | ⟨-, -, ht⟩ | ⟨-, i, hi, hexec⟩ := internalStep_next h
  · exact .unit c i hhost hi hexec
  · exact .waits hhost ht
  · exact .phase i hhost hi hexec

theorem StepSource.of_hostCommand {p : Ports} (hhost : ∃ rest, s.host = .command p :: rest)
    (h : hostCommand (taken s) p = .next t) : StepSource s t := by
  obtain ⟨-, ht⟩ | ⟨i, r, hi, hexec, ht⟩ | ⟨i, hi, hexec⟩ := hostCommand_next h
  · exact .refused p _ hhost (.inl rfl) ht
  · exact .refused p r hhost (.inr ⟨i, hi, hexec⟩) ht
  · exact .command p i hhost hi hexec

/-- What a step can do. -/
theorem stepSource_of_step (h : step s = .next t) : StepSource s t := by
  cases hhost : s.host with
  | nil =>
    have hs : taken s = s := by rw [taken, hhost, List.tail_nil, ← hhost]
    rw [step_of_host_nil s hhost, ← hs] at h
    exact .of_internalStep (.inl hhost) h
  | cons a rest =>
    have hs : { s with host := rest } = taken s := by simp [taken, hhost]
    rw [step_of_host_cons s rest a hhost, hs] at h
    cases a with
    | pass => exact .of_internalStep (.inr ⟨rest, hhost⟩) h
    | command p => exact .of_hostCommand ⟨rest, hhost⟩ h
    | readTag => cases h; exact .readTag ⟨rest, hhost⟩ rfl
    | readInfo index => cases h; exact .readInfo index ⟨rest, hhost⟩ rfl
    | reset => cases h; exact .reset ⟨rest, hhost⟩ rfl

end Sources

section WholeMachine

variable {s t : State} {i : Instr}

theorem step_keeps_degree (h : step s = .next t) : t.degree = s.degree := by
  cases stepSource_of_step h with
  | waits _ ht | refused _ _ _ _ ht | readTag _ ht | readInfo _ _ ht | reset _ ht => rw [ht]; rfl
  | phase i _ _ hexec | unit _ i _ _ hexec | command _ i _ _ hexec =>
    exact (exec_frame hexec).degree

theorem exec_keeps_messages (h : exec i s = .next t) (hi : i ≠ .mac) : MessagesKept s t :=
  ⟨fun _ => by rw [(exec_frame h).msg hi], fun _ => by rw [(exec_frame h).ports]⟩

/-- A step that the host leaves the core to, or in which it reads, keeps both message spaces. -/
theorem step_keeps_messages (h : step s = .next t)
    (hcommand : ∀ p rest, s.host ≠ .command p :: rest)
    (hreset : ∀ rest, s.host ≠ .reset :: rest) : MessagesKept s t := by
  cases stepSource_of_step h with
  | waits _ ht | readTag _ ht | readInfo _ _ ht => subst ht; exact ⟨fun _ => rfl, fun _ => rfl⟩
  | phase _ _ hi hexec => exact (exec_keeps_messages hexec (phaseOperation_ne hi).1 :)
  | unit _ _ _ hi hexec => exact (exec_keeps_messages hexec (unitOperation_ne hi).1 :)
  | command p _ hhost | refused p _ hhost => exact absurd hhost.choose_spec (hcommand p _)
  | reset hhost => exact absurd hhost.choose_spec (hreset _)

end WholeMachine

/-- Settles O53: no source of a step writes the degree. -/
theorem degreeNeverChanges : Obligations.DegreeNeverChanges := fun _ _ => step_keeps_degree

/-- Settles O51: of the operations only MAC writes a message space, the captured one. -/
theorem coreNeverWritesMemory : Obligations.CoreNeverWritesMemory :=
  ⟨fun _ _ _ => exec_keeps_messages, fun _ _ h _ => by rw [(exec_frame h).ports],
    fun _ _ => step_keeps_messages⟩

/-- Settles O52: P_EMIT is the one operation that raises TAG_VALID or writes a tag under it. -/
theorem tagBecomesValidOnlyByEmit : Obligations.TagBecomesValidOnlyByEmit := by
  intro s t h htag
  cases stepSource_of_step h with
  | waits _ ht | refused _ _ _ _ ht | readTag _ ht | readInfo _ _ ht =>
    subst ht
    exact .inr ⟨htag, rfl⟩
  | reset _ ht => subst ht; cases htag
  | phase i _ hi hexec =>
    by_cases hemit : i = .pEmit
    · have hphase := (phaseOperation_ne hi).2 hemit
      subst hemit
      cases hexec
      exact .inl ⟨hphase, rfl⟩
    · exact .inr ((exec_frame hexec).tag hemit htag)
  | unit _ _ _ hi hexec => exact .inr ((exec_frame hexec).tag (unitOperation_ne hi).2 htag)
  | command _ i _ hi hexec =>
    have hi' : i ≠ .pEmit := by obtain ⟨-, rfl⟩ | ⟨-, rfl⟩ := decodeH_ok hi <;> decide
    exact .inr ((exec_frame hexec).tag hi' htag)

end Sys2Proof.Proofs
end

section
/-! PROOFS. The statements of 30_encoding.md about codes (R63 to R67) and about the 128-bit ports
(R61). -/

-- As in the tests, each theorem is checked in place: one that waits for the kernel beside the others
-- costs a thread, and so memory.
set_option Elab.async false

namespace Sys2Proof.Proofs

open Sys2Proof.Machine Sys2Proof.Laws

section Codes

theorem decode_encode (i : Instr) : decode (encode i) = .ok i := by cases i <;> rfl

theorem wellFormed_encode (i : Instr) : (encode i).wellFormed = true := by cases i <;> rfl

/-- A code of a phase is the code of the operation it names (R64). -/
theorem decodeP4_ok {c : BitVec 4} {i : Instr} (h : decodeP4 c = .ok i) : .p4 c = encode i := by
  unfold decodeP4 at h
  split at h <;> cases h
  all_goals
    rename_i hc
    exact congrArg CodeWord.p4 (BitVec.eq_of_toNat_eq hc)

/-- In each of the three code spaces an operation has one code. -/
theorem eq_encode_of_decode {c : CodeWord} {i : Instr} (h : decode c = .ok i) : c = encode i := by
  cases c with
  | h c => obtain ⟨rfl, rfl⟩ | ⟨rfl, rfl⟩ := decodeH_ok h <;> rfl
  | p4 c => exact decodeP4_ok h
  | u3 c =>
    obtain ⟨rfl, rfl⟩ | ⟨rfl, rfl⟩ | ⟨rfl, rfl⟩ | ⟨rfl, rfl⟩ | ⟨rfl, rfl⟩ | ⟨rfl, rfl⟩ |
      ⟨rfl, rfl⟩ := decodeU3_ok h <;> rfl

/-- A command word that names no command is rejected under one name (R67). -/
theorem decodeH_reserved {c : BitVec 8} (h1 : c ≠ 0x01) (h2 : c ≠ 0x02) :
    decodeH c = .error .reservedCommand := by
  unfold decodeH
  split
  next hc => exact absurd (BitVec.eq_of_toNat_eq hc) h1
  next hc => exact absurd (BitVec.eq_of_toNat_eq hc) h2
  next => rfl

/-- The phase codes from 0xA on (R67), read off the sixteen codes. -/
theorem phaseCode_reserved : ∀ c : BitVec 4, 10 ≤ c.toNat →
    decodeP4 c = .error .reservedPhase ∧ phaseOfCode c = none := by
  decide

/-- A select code other than 0b111 names an operation (R65, R67). -/
theorem decodeU3_of_ne : ∀ c : BitVec 3, c ≠ 0b111 → ∃ i, decodeU3 c = .ok i
  | 0b000#3, _ | 0b001#3, _ | 0b010#3, _ | 0b011#3, _ | 0b100#3, _ | 0b101#3, _ | 0b110#3, _ =>
    ⟨_, rfl⟩
  | 0b111#3, h => absurd rfl h

end Codes

/-- Settles O1: every operation's code, and the codes that each decoder accepts. -/
theorem codesDecodeToTheirOperation : Obligations.CodesDecodeToTheirOperation :=
  ⟨fun i => ⟨wellFormed_encode i, decode_encode i⟩, fun _ _ => eq_encode_of_decode⟩

/-- Settles O2: the three decoders on the codes outside their tables. -/
theorem reservedCodesNameNoOperation : Obligations.ReservedCodesNameNoOperation :=
  ⟨fun _ => decodeH_reserved, phaseCode_reserved, rfl, rfl⟩

/-- Settles O3: each word is the code of its operation. -/
theorem writtenCodesDecode : Obligations.WrittenCodesDecode :=
  ⟨decode_encode .init, decode_encode .mac, decode_encode .pKs, decode_encode .pBlank,
    decode_encode .pEmit, decode_encode .waesr, decode_encode .aesenc⟩

section Ports

/-- Byte `i` of the little-endian number of a byte list (R61). -/
theorem ofNat_bytesToNat_div (bytes : List Byte) (i : Nat) :
    BitVec.ofNat 8 (bytesToNat bytes / 256 ^ i) = bytes.getD i 0 := by
  induction bytes generalizing i with
  | nil => simp [bytesToNat]
  | cons b bytes ih =>
    cases i with
    | zero =>
      apply BitVec.eq_of_toNat_eq
      have hb := b.isLt
      simp only [bytesToNat, BitVec.toNat_ofNat, pow_zero, Nat.div_one, List.getD_cons_zero]
      omega
    | succ i =>
      have hdiv : bytesToNat (b :: bytes) / 256 ^ (i + 1) = bytesToNat bytes / 256 ^ i := by
        have hb : b.toNat < 256 := b.isLt
        rw [Nat.pow_succ', ← Nat.div_div_eq_div_mul, bytesToNat,
          Nat.add_mul_div_left _ _ (by decide), Nat.div_eq_of_lt hb, Nat.zero_add]
      rw [hdiv, ih, List.getD_cons_succ]

/-- The bits of byte `i` of a 128-bit number. -/
theorem extractLsb'_ofNat_byte (x : Nat) {i : Nat} (hi : i < 16) :
    (BitVec.ofNat 128 x).extractLsb' (8 * i) 8 = BitVec.ofNat 8 (x / 256 ^ i) := by
  apply BitVec.eq_of_getLsbD_eq
  intro j hj
  have hpow : 256 ^ i = 2 ^ (8 * i) := by rw [Nat.pow_mul]
  have hin : 8 * i + j < 128 := by omega
  rw [BitVec.getLsbD_extractLsb', BitVec.getLsbD_ofNat, BitVec.getLsbD_ofNat, hpow,
    Nat.testBit_div_two_pow, Nat.add_comm j]
  simp [hj, hin]

theorem getElem?_blockBytes_portOfBlock (b : Block128) {i : Nat} (hi : i < 16) :
    (blockBytes b)[i]? = some ((portOfBlock b).extractLsb' (8 * i) 8) := by
  have hlen : i < (blockBytes b).length := hi
  rw [portOfBlock, extractLsb'_ofNat_byte _ hi, ofNat_bytesToNat_div, List.getElem?_eq_getElem hlen,
    List.getD_eq_getElem _ _ hlen]

theorem blockBytes_blockOfPort (v : BitVec 128) :
    blockBytes (blockOfPort v) = (List.range 16).map fun i => v.extractLsb' (8 * i) 8 := by
  rw [blockOfPort, blockBytes_blockOf (by simp)]
  refine List.map_congr_left fun i _ => ?_
  rw [← BitVec.setWidth_ushiftRight_eq_extractLsb]

theorem getElem?_blockBytes_blockOfPort (v : BitVec 128) {i : Nat} (hi : i < 16) :
    (blockBytes (blockOfPort v))[i]? = some (v.extractLsb' (8 * i) 8) := by
  rw [blockBytes_blockOfPort]
  simp [hi]

theorem blockOfPort_portOfBlock (b : Block128) : blockOfPort (portOfBlock b) = b := by
  apply Block128.eq_of_bytes
  refine List.ext_getElem? fun i => ?_
  by_cases hi : i < 16
  · rw [getElem?_blockBytes_blockOfPort _ hi, getElem?_blockBytes_portOfBlock b hi]
  · rw [List.getElem?_eq_none (by simpa using hi), List.getElem?_eq_none (by simpa using hi)]

/-- A 128-bit number is known from its sixteen bytes. -/
theorem eq_of_extractLsb'_eq {v w : BitVec 128}
    (h : ∀ i < 16, v.extractLsb' (8 * i) 8 = w.extractLsb' (8 * i) 8) : v = w := by
  apply BitVec.eq_of_getLsbD_eq
  intro j hj
  have hbit := congrArg (BitVec.getLsbD · (j % 8)) (h (j / 8) (by omega))
  simpa only [BitVec.getLsbD_extractLsb', Nat.mod_lt _ (by decide : 0 < 8), decide_true,
    Bool.true_and, Nat.div_add_mod] using hbit

theorem portOfBlock_blockOfPort (v : BitVec 128) : portOfBlock (blockOfPort v) = v := by
  refine eq_of_extractLsb'_eq fun i hi => Option.some.inj ?_
  rw [← getElem?_blockBytes_portOfBlock _ hi, getElem?_blockBytes_blockOfPort _ hi]

end Ports

/-- Settles O13: the bytes of both conversions, and a block and a port value are known from their
bytes. -/
theorem portsCarryByteIAtBit8I : Obligations.PortsCarryByteIAtBit8I :=
  ⟨fun b _ => getElem?_blockBytes_portOfBlock b, fun v _ => getElem?_blockBytes_blockOfPort v,
    blockOfPort_portOfBlock, portOfBlock_blockOfPort⟩

end Sys2Proof.Proofs
end

section
/-! PROOFS. The statements about one operation or one host action: what it answers, what it writes
and what it leaves (43_absorption.md, 44_finalization.md, 45_commands.md sections 2 to 4,
70_reset_and_hazards.md section 1). -/

-- As in the tests, each theorem is checked in place: one that waits for the kernel beside the others
-- costs a thread, and so memory.
set_option Elab.async false

namespace Sys2Proof.Proofs

open Sys2Proof.Machine Sys2Proof.Safety Sys2Proof.Laws

section Sequencer

variable {s : State} {i : Instr}

/-- With no unit operation issued the core runs the operation of PHASE (R64). -/
theorem internalStep_of_phase (hsel : s.unit.sel = none)
    (hi : decodeP4 (phaseCode s.phase) = .ok i) : internalStep s = exec i s := by
  simp only [internalStep, hsel, hi]

/-- An issued unit operation is taken off the select wires and run (R65). -/
theorem internalStep_of_unit {c : BitVec 3} (hsel : s.unit.sel = some c)
    (hi : decodeU3 c = .ok i) :
    internalStep s = exec i { s with unit := { s.unit with sel := none } } := by
  simp only [internalStep, hsel, hi]

/-- P_IDLE takes no step (R121). -/
theorem internalStep_of_waiting (h : Waiting s) : internalStep s = .next s := by
  obtain ⟨hphase, hsel⟩ := h
  simp only [internalStep, hsel, hphase]
  rfl

/-- A fault of the core on its own comes from the select wires (log 13). -/
theorem internalStep_fault {f : Fault} (h : internalStep s = .fault f) :
    s.unit.sel = some 0b111 := by
  simp only [internalStep] at h
  split at h
  case h_1 c hsel =>
    by_contra hne
    have hc : c ≠ 0b111 := fun hc => hne (hc ▸ hsel)
    obtain ⟨i, hi⟩ := decodeU3_of_ne c hc
    rw [hi] at h
    exact exec_ne_fault i _ f h
  case h_2 =>
    split at h
    · exact absurd h (exec_ne_fault _ s f)
    · cases h

/-- A step without a host action, or with a pass, is a step of the core. -/
theorem step_of_host_pass {rest : List HostAction} (h : s.host = .pass :: rest) :
    step s = internalStep { s with host := rest } := by
  rw [step_of_host_cons s rest .pass h, hostStep_pass]

theorem step_of_host_command {p : Ports} {rest : List HostAction}
    (h : s.host = .command p :: rest) : step s = hostCommand { s with host := rest } p := by
  rw [step_of_host_cons s rest _ h, hostStep_command]

/-- A command word that names a command: its outcome, a refusal turned into the answer (R121). -/
theorem hostCommand_of_decodeH {p : Ports} (hi : decodeH p.cmd = .ok i) :
    hostCommand s p = settle s (exec i { s with ports := p, answer := some .accepted }) := by
  simp only [hostCommand, hi]

theorem hostCommand_of_refused {p : Ports} {r : Refusal} (hi : decodeH p.cmd = .ok i)
    (hr : exec i { s with ports := p, answer := some .accepted } = .refused r) :
    hostCommand s p = .next (answered s (.refused r)) := by
  rw [hostCommand_of_decodeH hi, hr]
  rfl

theorem hostCommand_of_next {p : Ports} {t : State} (hi : decodeH p.cmd = .ok i)
    (ht : exec i { s with ports := p, answer := some .accepted } = .next t) :
    hostCommand s p = .next t := by
  rw [hostCommand_of_decodeH hi, ht]
  rfl

end Sequencer

/-- Settles O4: the three wires, one rule each. -/
theorem stepRunsTheDecodedOperation : Obligations.StepRunsTheDecodedOperation := by
  refine ⟨fun s i hsel hi => ⟨fun hhost => ?_, fun rest hhost => ?_⟩,
    fun s i c hsel hi => ⟨fun hhost => ?_, fun rest hhost => ?_⟩,
    fun s p rest i hhost hi => ⟨fun t ht => ?_, fun r hr => ?_⟩⟩
  · rw [step_of_host_nil s hhost, internalStep_of_phase hsel hi]
  · rw [step_of_host_pass hhost]
    exact internalStep_of_phase (s := { s with host := rest }) hsel hi
  · rw [step_of_host_nil s hhost, internalStep_of_unit hsel hi]
  · rw [step_of_host_pass hhost]
    exact internalStep_of_unit (s := { s with host := rest }) hsel hi
  · rw [step_of_host_command hhost]
    exact hostCommand_of_next hi ht
  · rw [step_of_host_command hhost]
    exact hostCommand_of_refused hi hr

/-- Settles O5: a waiting core takes no step of its own. -/
theorem idleCoreWaits : Obligations.IdleCoreWaits := by
  intro s h
  refine ⟨fun hhost => ?_, fun rest hhost => ?_⟩
  · rw [step_of_host_nil s hhost, internalStep_of_waiting h]
  · rw [step_of_host_pass hhost]
    exact internalStep_of_waiting (s := { s with host := rest }) h

section Commands

variable {s : State}

theorem exec_init_of_busy (h : s.phase ≠ .idle) : exec .init s = .refused .busy := by
  simp [exec, execInit, busy, h]

theorem exec_mac_of_busy (h : s.phase ≠ .idle) : exec .mac s = .refused .busy := by
  simp [exec, execMac, busy, h]

theorem exec_mac_of_noContext (h : s.phase = .idle) (hctx : s.ctxValid = false) :
    exec .mac s = .refused .noContext := by
  simp [exec, execMac, busy, h, hctx]

theorem exec_init_of_idle (h : s.phase = .idle) :
    exec .init s = .next
      { s with
        k := blockOfPort s.ports.keyIn, ctxValid := false, tagValid := false, phase := .ks,
        ctx := freeContext s, tagOut := freeBlock s 45, freeDraws := s.freeDraws + 1 } := by
  simp [exec, execInit, busy, h]

theorem exec_mac_of_idle (h : s.phase = .idle) (hctx : s.ctxValid = true) :
    exec .mac s = .next
      { s with
        nonce := blockOfPort s.ports.nonceIn, len := s.ports.msgLen,
        msg := s.ports.msg.capture s.ports.msgLen s.freeDraws, tagValid := false,
        phase := .start, tagOut := freeBlock s 45, freeDraws := s.freeDraws + 1 } := by
  simp [exec, execMac, busy, h, hctx]

theorem read_capture_of_supplied {m : Memory} {len draw a : Nat} (ha : a < len)
    (hm : (m.read a).isSome) : (m.capture len draw).read a = m.read a := by
  obtain ⟨v, hv⟩ := Option.isSome_iff_exists.1 hm
  rw [Memory.read_capture, if_pos ha, hv, Option.getD_some]

theorem isSome_read_capture {m : Memory} {len draw a : Nat} (ha : a < len) :
    ((m.capture len draw).read a).isSome := by
  rw [Memory.read_capture, if_pos ha, Option.isSome_some]

theorem wf_capture (m : Memory) (len draw : Nat) : (m.capture len draw).wf = true :=
  Memory.wf_ofBytes _

end Commands

/-- Settles O34: the checks in the order of R121. -/
theorem commandsAreRefusedBusyThenNoContext : Obligations.CommandsAreRefusedBusyThenNoContext :=
  ⟨fun _ h => ⟨exec_init_of_busy h, exec_mac_of_busy h⟩, fun _ => exec_mac_of_noContext⟩

/-- Settles O32: the accepted INIT. -/
theorem initIsAcceptedWhenIdle : Obligations.InitIsAcceptedWhenIdle :=
  fun _ h => ⟨_, exec_init_of_idle h, rfl, rfl, rfl, rfl, ⟨fun _ => rfl, fun _ => rfl⟩, rfl⟩

/-- Settles O18: the captured space offset by offset. -/
theorem captureTakesTheSuppliedBytes : Obligations.CaptureTakesTheSuppliedBytes := by
  intro m len draw a
  refine ⟨read_capture_of_supplied, isSome_read_capture, fun ha => ?_, wf_capture m len draw⟩
  rw [Memory.read_capture, if_neg (Nat.not_lt.2 ha)]

/-- Settles O33: the accepted MAC, and what the capture holds. -/
theorem macIsAcceptedWhenIdleWithContext : Obligations.MacIsAcceptedWhenIdleWithContext :=
  fun _ h hctx => ⟨_, exec_mac_of_idle h hctx, rfl, rfl, rfl, rfl, fun _ => isSome_read_capture,
    fun _ => read_capture_of_supplied, rfl⟩

section Reads

variable {s : State}

theorem readTag_of_valid (h : s.tagValid = true) : readTag s = .ok (portOfBlock s.tagOut) :=
  if_pos h

theorem readTag_of_not_valid (h : s.tagValid = false) : readTag s = .error .tagNotValid := by
  simp [readTag, h]

/-- The one reason for refusing a read of the information port (R127). -/
theorem readInfo_error {index : Nat} {r : Refusal} (h : readInfo s index = .error r) :
    r = .noSuchRegister := by
  unfold readInfo at h
  split at h <;> cases h
  rfl

/-- The one reason for refusing a read of the tag (R126). -/
theorem readTag_error {r : Refusal} (h : readTag s = .error r) : r = .tagNotValid := by
  unfold readTag at h
  split at h <;> cases h
  rfl

/-- An answer to a read that is a refusal has the reason of the read. -/
theorem readAnswer_eq_refused {α : Type} {wrap : α → Answer} {e : Except Refusal α} {r : Refusal}
    (h : readAnswer wrap e = .refused r) (hwrap : ∀ v, wrap v ≠ .refused r) : e = .error r := by
  cases e with
  | ok v => exact absurd h (hwrap v)
  | error r' => cases h; rfl

end Reads

/-- Settles O10: the step of a read, its answer being a value. -/
theorem readsAnswerAndChangeNothing : Obligations.ReadsAnswerAndChangeNothing := by
  refine ⟨fun s rest hhost htag => ?_, fun s rest index v hhost hv => ?_⟩
  · rw [step_of_host_cons s rest _ hhost, hostStep_readTag,
      readTag_of_valid (s := { s with host := rest }) htag]
    rfl
  · have hread : readInfo { s with host := rest } index = .ok v := hv
    rw [step_of_host_cons s rest _ hhost, hostStep_readInfo, hread]
    rfl

/-- Settles O12: the tag's answer reads TAG_VALID and a valid TAG_OUT, the information bank the
degree and STATUS. -/
theorem readsRevealOnlyStatusAndTag : Obligations.ReadsRevealOnlyStatusAndTag := by
  intro s s' hdegree hphase hctx htag hout
  refine ⟨?_, fun index => ?_⟩
  · cases hvalid : s.tagValid with
    | false => rw [readTag_of_not_valid hvalid, readTag_of_not_valid (htag ▸ hvalid)]
    | true => rw [readTag_of_valid hvalid, readTag_of_valid (htag ▸ hvalid), hout hvalid]
  · have hstatus : statusWord s = statusWord s' := by
      simp only [statusWord, busy, hphase, hctx, htag]
    simp only [readInfo, hdegree, hstatus]

/-- Settles O7: the registers of the state after reset by definition. -/
theorem afterResetTheCoreWaitsWithoutContextOrTag :
    Obligations.AfterResetTheCoreWaitsWithoutContextOrTag :=
  ⟨rfl, fun _ => ⟨rfl, rfl, rfl, rfl, rfl, rfl, rfl, rfl, rfl, rfl⟩⟩

/-- Settles O8: the reset action, and the two refusals of a core without context and tag. -/
theorem resetAbandonsEverything : Obligations.ResetAbandonsEverything := by
  intro s rest hhost
  rw [step_of_host_cons s rest _ hhost, hostStep_reset]
  exact ⟨_, rfl, rfl, rfl, rfl, rfl, rfl, rfl, exec_mac_of_noContext rfl rfl,
    readTag_of_not_valid rfl⟩

section Refusals

variable {s t : State} {p : Ports} {rest : List HostAction} {r : Refusal}

/-- The spec's closed list of answers to the host (R140). -/
def answerReasons : List Refusal :=
  [.reservedCommand, .busy, .noContext, .tagNotValid, .noSuchRegister]

theorem step_reserved (hhost : s.host = .command p :: rest) (h1 : p.cmd ≠ 0x01)
    (h2 : p.cmd ≠ 0x02) :
    step s = .next { s with host := rest, answer := some (.refused .reservedCommand) } := by
  rw [step_of_host_command hhost, hostCommand, decodeH_reserved h1 h2]
  rfl

theorem step_busy (hhost : s.host = .command p :: rest) (hcmd : p.cmd = 0x01 ∨ p.cmd = 0x02)
    (hphase : s.phase ≠ .idle) :
    step s = .next { s with host := rest, answer := some (.refused .busy) } := by
  rw [step_of_host_command hhost]
  obtain hcmd | hcmd := hcmd
  · exact hostCommand_of_refused (i := .init) (by rw [hcmd]; rfl) (exec_init_of_busy hphase)
  · exact hostCommand_of_refused (i := .mac) (by rw [hcmd]; rfl) (exec_mac_of_busy hphase)

theorem step_noContext (hhost : s.host = .command p :: rest) (hcmd : p.cmd = 0x02)
    (hphase : s.phase = .idle) (hctx : s.ctxValid = false) :
    step s = .next { s with host := rest, answer := some (.refused .noContext) } := by
  rw [step_of_host_command hhost]
  exact hostCommand_of_refused (i := .mac) (by rw [hcmd]; rfl) (exec_mac_of_noContext hphase hctx)

theorem step_tagNotValid (hhost : s.host = .readTag :: rest) (htag : s.tagValid = false) :
    step s = .next { s with host := rest, answer := some (.refused .tagNotValid) } := by
  rw [step_of_host_cons s rest _ hhost, hostStep_readTag,
    readTag_of_not_valid (s := { s with host := rest }) htag]
  rfl

theorem step_noSuchRegister {index : Nat} (hhost : s.host = .readInfo index :: rest)
    (hindex : 6 ≤ index) :
    step s = .next { s with host := rest, answer := some (.refused .noSuchRegister) } := by
  rw [step_of_host_cons s rest _ hhost, hostStep_readInfo, readInfo_of_six_le _ hindex]
  rfl

/-- A command is refused for a reason of the closed list. -/
theorem mem_answerReasons_of_command {i : Instr} (hi : decodeH p.cmd = .ok i)
    (h : exec i s = .refused r) : r ∈ answerReasons := by
  obtain ⟨-, -, rfl⟩ | ⟨-, -, rfl⟩ | ⟨-, -, -, rfl⟩ | ⟨rfl, -⟩ | ⟨rfl, -⟩ | ⟨rfl, -⟩ | ⟨rfl, -⟩ :=
    exec_refused h
  case inl | inr.inl | inr.inr.inl => decide
  all_goals obtain ⟨-, hno⟩ | ⟨-, hno⟩ := decodeH_ok hi <;> cases hno

/-- Whatever the host does, what it is refused for is on the closed list. -/
theorem mem_answerReasons {a : HostAction} (hhost : s.host = a :: rest) (ha : a ≠ .pass)
    (h : step s = .next t) (hr : t.answer = some (.refused r)) : r ∈ answerReasons := by
  have alone : ¬LeftAlone s := by
    rintro (hnil | ⟨_, hpass⟩)
    · rw [hhost] at hnil; cases hnil
    · rw [hhost] at hpass; cases hpass; exact ha rfl
  cases stepSource_of_step h with
  | waits hleft | phase _ hleft | unit _ _ hleft => exact absurd hleft alone
  | command p i _ hi hexec =>
    rw [(exec_frame hexec).answer] at hr
    cases hr
  | refused p r' _ hr' ht =>
    subst ht
    cases hr
    obtain rfl | ⟨i, hi, hexec⟩ := hr'
    · decide
    · exact mem_answerReasons_of_command hi hexec
  | readTag _ ht =>
    subst ht
    have hans : readAnswer .tag (readTag (taken s)) = .refused r := Option.some.inj hr
    rw [readTag_error (readAnswer_eq_refused hans fun _ => nofun)]
    decide
  | readInfo index _ ht =>
    subst ht
    have hans : readAnswer .info (readInfo (taken s) index) = .refused r := Option.some.inj hr
    rw [readInfo_error (readAnswer_eq_refused hans fun _ => nofun)]
    decide
  | reset _ ht => subst ht; cases hr

end Refusals

/-- Settles O11: each refusal in the order of the checks, then the closed list from the sources of a
step. -/
theorem refusedActionsChangeNothing : Obligations.RefusedActionsChangeNothing :=
  ⟨fun _ _ _ => step_reserved, fun _ _ _ => step_busy, fun _ _ _ => step_noContext,
    fun _ _ => step_tagNotValid, fun _ _ _ => step_noSuchRegister,
    fun _ _ _ _ _ => mem_answerReasons⟩

/-- WLOAD's operand check (R81). -/
theorem bufferWellFormed_iff (d : Degree) (buf : List Byte) :
    bufferWellFormed d buf = true ↔ buf.length = 16 * d.lanes := beq_iff_eq

/-- Settles O29: four operations by definition, WLOAD by the length of its buffer. -/
theorem unitOperationsCompleteAndTouchOnlyTheirResult :
    Obligations.UnitOperationsCompleteAndTouchOnlyTheirResult := by
  refine ⟨fun _ => rfl, fun _ => rfl, fun s h => ?_, fun s h => ?_, fun _ => rfl, fun _ => rfl⟩
  · exact if_pos ((bufferWellFormed_iff _ _).2 h)
  · exact if_neg (mt (bufferWellFormed_iff _ _).1 h)

/-- Settles O39: the assignments of the round. -/
theorem roundReadsOldRegisters : Obligations.RoundReadsOldRegisters :=
  fun _ _ _ _ _ => ⟨rfl, rfl, rfl, rfl, rfl, rfl, rfl, rfl, rfl, rfl, rfl, rfl, rfl⟩

section Absorption

variable {s : State}

theorem exec_pPad_of_long (hc : MessageCaptured s) (h : s.pos + s.degree.superBytes ≤ s.len) :
    exec .pPad s = .refused .padTooLong := by
  have hpos := Degree.superBytes_pos s.degree
  obtain ⟨rest, hread⟩ := memRead_isSome (a := s.pos) (n := s.len - s.pos) hc (by omega)
  simp only [exec, execPPad, hread]
  exact if_neg (by omega)

theorem exec_pFull_of_short (h : s.len < s.pos + s.degree.superBytes) :
    exec .pFull s = .refused .memReadOutside := by
  simp only [exec, execPFull, memRead_eq_none_of_len_lt h]

theorem exec_pPad_of_beyond (h : s.len < s.pos) : exec .pPad s = .refused .memReadOutside := by
  have hread : memRead s s.pos (s.len - s.pos) = none := memRead_eq_none_of_len_lt (by omega)
  simp only [exec, execPPad, hread]

/-- A command never faults: its refusal is an answer. -/
theorem hostCommand_ne_fault {p : Ports} (f : Fault) : hostCommand s p ≠ .fault f := by
  cases hi : decodeH p.cmd with
  | error e => simp [hostCommand, hi]
  | ok i =>
    rw [hostCommand_of_decodeH hi]
    cases hexec : exec i { s with ports := p, answer := some .accepted } with
    | next t => exact nofun
    | fault f' => exact absurd hexec (exec_ne_fault _ _ f')
    | refused r => exact nofun

theorem step_fault {f : Fault} (h : step s = .fault f) : s.unit.sel = some 0b111 := by
  cases hhost : s.host with
  | nil => exact internalStep_fault (step_of_host_nil s hhost ▸ h)
  | cons a rest =>
    rw [step_of_host_cons s rest a hhost] at h
    cases a with
    | pass => exact (internalStep_fault h :)
    | command p => exact absurd h (hostCommand_ne_fault f)
    | readTag | readInfo | reset => cases h

/-- P_BLANK counts its rounds to CNT = 3 (R107). -/
theorem exec_pBlank_last (h : s.cnt = 3) :
    exec .pBlank s =
      .next { s with work := roundBlank s.degree s.work, idx := 0, phase := .mod } :=
  if_pos h

theorem exec_pBlank_inner (h : s.cnt ≠ 3) :
    exec .pBlank s =
      .next { s with work := roundBlank s.degree s.work, cnt := s.cnt + 1, phase := .blank } :=
  if_neg h

/-- Below its last value a counter register counts up without wrapping. -/
theorem val_add_one_of_ne_last {n : Nat} {c : Fin (n + 1)} (h : c ≠ Fin.last n) :
    (c + 1).val = c.val + 1 :=
  Fin.val_add_one_of_lt (Fin.lt_last_iff_ne_last.2 h)

end Absorption

/-- Settles O43: P_FULL and P_PAD outside their ranges, and the one source of a fault. -/
theorem absorptionStopsOutsideItsEntryCondition :
    Obligations.AbsorptionStopsOutsideItsEntryCondition :=
  ⟨fun _ => exec_pFull_of_short, fun _ => exec_pPad_of_beyond, fun _ => exec_pPad_of_long,
    exec_ne_fault, fun _ _ => step_fault⟩

/-- Settles O44: the last blank round and the others. -/
theorem blankRoundsAreCounted : Obligations.BlankRoundsAreCounted :=
  ⟨fun _ => exec_pBlank_last,
    fun _ h => ⟨_, exec_pBlank_inner h, val_add_one_of_ne_last h, rfl⟩⟩

section Finalization

variable {s : State}

/-- T after P_MOD (R113). -/
def modSumAfter (s : State) : Wide := if s.idx = 0 then modTerm s else wideXor s.t (modTerm s)

theorem exec_pMod_last (h : s.idx = 8) :
    exec .pMod s = .next { s with t := modSumAfter s, phase := .fold } :=
  if_pos h

theorem exec_pMod_inner (h : s.idx ≠ 8) :
    exec .pMod s = .next { s with t := modSumAfter s, idx := s.idx + 1, phase := .mod } :=
  if_neg h

end Finalization

/-- Settles O46: the last index and the others. -/
theorem modFoldsOneStateBlock : Obligations.ModFoldsOneStateBlock := by
  intro s
  have hfirst : s.idx = 0 → modSumAfter s = modTerm s := fun h => if_pos h
  have hlater : s.idx ≠ 0 → modSumAfter s = wideXor s.t (modTerm s) := fun h => if_neg h
  by_cases h : s.idx = 8
  · exact ⟨_, exec_pMod_last h, hfirst, hlater, fun _ => ⟨rfl, rfl⟩, fun hne => absurd h hne,
      ⟨fun _ => rfl, fun _ => rfl⟩, rfl⟩
  · exact ⟨_, exec_pMod_inner h, hfirst, hlater, fun heq => absurd heq h,
      fun _ => ⟨rfl, val_add_one_of_ne_last h⟩, ⟨fun _ => rfl, fun _ => rfl⟩, rfl⟩

/-- Settles O48: P_NONCE by definition. -/
theorem nonceEntersTwice : Obligations.NonceEntersTwice := fun _ => rfl

/-- Settles O49: P_EMIT by definition. -/
theorem emitWritesTheTag : Obligations.EmitWritesTheTag :=
  fun _ => ⟨_, rfl, rfl, rfl, rfl, rfl, rfl, ⟨fun _ => rfl, fun _ => rfl⟩, rfl⟩

end Sys2Proof.Proofs
end

section
/-! PROOFS. The invariant of 60_exceptions.md section 1 and 10_state.md sections 1 and 3: the state
after reset is safe, and from a safe state every step goes on, to a safe state. The shape of the
registers is kept by every operation; the entry conditions follow the transition table of
45_commands.md section 3 (R124), which is said once, for the part of the state that steers the
sequencer. -/

-- As in the tests, each theorem is checked in place: one that waits for the kernel beside the others
-- costs a thread, and so memory.
set_option Elab.async false

namespace Sys2Proof.Proofs

open Sys2Proof.Machine Sys2Proof.Safety Sys2Proof.Laws

section Shape

variable {s t : State} {i : Instr} {d : Degree}

/-- The part of a safe state that does not depend on PHASE: D lanes, well-formed wires, message
spaces in canonical form. -/
structure Shaped (s : State) : Prop where
  context : ContextShaped s.degree s.ctx
  working : WorkingShaped s.degree s.work
  sum : WideShaped s.degree s.t
  unit : UnitShaped s.degree s.unit
  captured : s.msg.wf = true
  presented : s.ports.msg.wf = true
  coming : ∀ p, HostAction.command p ∈ s.host → p.msg.wf = true

theorem shaped_of_safe (h : SafeState s) : Shaped s :=
  ⟨h.context, h.working, h.sum, h.unit, h.captured, h.presented, h.coming⟩

theorem Shaped.safe (h : Shaped s) (entry : EntryCondition s)
    (tag : s.phase ≠ .idle → s.tagValid = false) : SafeState s :=
  ⟨h.context, h.working, h.sum, h.unit, h.captured, h.presented, h.coming, entry, tag⟩

theorem contextShaped_freeContext (s : State) : ContextShaped s.degree (freeContext s) := by
  constructor <;> intro i <;> simp [WideShaped]

theorem contextShaped_contextOf (d : Degree) (key : Block128) :
    ContextShaped d (contextOf d key) := by
  constructor <;> intro i <;> simp [contextOf, WideShaped]

theorem workingShaped_freeWorking (s : State) : WorkingShaped s.degree (freeWorking s) := by
  constructor <;> simp [WideShaped]

theorem workingShaped_workingStart {init : Vector Wide 9}
    (h : ∀ i : Fin 9, WideShaped d init[i.val]) : WorkingShaped d (workingStart d init) :=
  ⟨h, length_wideZero d, length_wideZero d, length_wideZero d, length_wideZero d⟩

theorem workingShaped_roundOn {w : Working} (h : WorkingShaped d w) (buf : List Byte) :
    WorkingShaped d (roundOn d w buf) :=
  workingShaped_roundStep h (length_splitBlock d buf 0) (length_splitBlock d buf 1)
    (length_splitBlock d buf 2) (length_splitBlock d buf 3)

theorem workingShaped_roundBlank {w : Working} (h : WorkingShaped d w) :
    WorkingShaped d (roundBlank d w) :=
  workingShaped_roundStep h (length_wideZero d) (length_wideZero d) (length_wideZero d)
    (length_wideZero d)

theorem wideShaped_wideXor {a b : Wide} (ha : WideShaped d a) (hb : WideShaped d b) :
    WideShaped d (wideXor a b) := by
  rw [WideShaped, length_wideXor, ha, hb, min_self]

theorem wideShaped_wideAesRound {a k : Wide} (ha : WideShaped d a) (hk : WideShaped d k) :
    WideShaped d (wideAesRound a k) := by
  rw [WideShaped, length_wideAesRound, ha, hk, min_self]

theorem wideShaped_modSumAfter (h : Shaped s) : WideShaped s.degree (modSumAfter s) := by
  have hterm : WideShaped s.degree (modTerm s) :=
    length_aesMod h.context.subkey s.idx (h.working.blocks s.idx)
  unfold modSumAfter
  split
  · exact hterm
  · exact wideShaped_wideXor h.sum hterm

/-- Every operation keeps the shape of the registers and wires. -/
theorem exec_keeps_shape (hs : Shaped s) (h : exec i s = .next t) : Shaped t := by
  cases i with
  | init =>
    obtain ⟨-, rfl⟩ := execInit_next h
    exact { hs with context := contextShaped_freeContext s }
  | mac =>
    obtain ⟨-, -, rfl⟩ := execMac_next h
    exact { hs with captured := wf_capture _ _ _ }
  | pKs => cases h; exact { hs with context := contextShaped_contextOf s.degree s.k }
  | pStart => cases h; exact { hs with working := workingShaped_workingStart hs.context.initState }
  | pFull =>
    obtain ⟨buf, -, rfl⟩ := execPFull_next h
    exact { hs with working := workingShaped_roundOn hs.working buf }
  | pPad =>
    obtain ⟨rest, -, -, rfl⟩ := execPPad_next h
    exact { hs with working := workingShaped_roundOn hs.working _ }
  | pBlank =>
    obtain ⟨-, rfl⟩ | ⟨-, rfl⟩ := execPBlank_next h <;>
      exact { hs with working := workingShaped_roundBlank hs.working }
  | pMod =>
    obtain ⟨-, rfl⟩ | ⟨-, rfl⟩ := execPMod_next h <;>
      exact { hs with sum := wideShaped_modSumAfter hs }
  | pFold | pNonce => cases h; exact { hs with }
  | pEmit =>
    cases h
    exact { hs with working := workingShaped_freeWorking s, sum := length_freeWide s 40 }
  | wzero => cases h; exact { hs with unit := { hs.unit with outWide := length_wideZero s.degree } }
  | wxor =>
    cases h
    exact { hs with unit := { hs.unit with outWide := wideShaped_wideXor hs.unit.a hs.unit.b } }
  | waesr =>
    cases h
    exact { hs with
      unit := { hs.unit with outWide := wideShaped_wideAesRound hs.unit.a hs.unit.b } }
  | wload =>
    obtain ⟨-, rfl⟩ := execWload_next h
    exact { hs with unit := { hs.unit with outWide := length_fromBytes s.degree _ } }
  | wstore =>
    cases h
    have hbuf : bufferWellFormed s.degree (toBytes s.unit.a) = true := by
      rw [bufferWellFormed_iff, length_toBytes, hs.unit.a]
    exact { hs with unit := { hs.unit with outBuf := hbuf } }
  | keyexp | aesenc => cases h; exact { hs with unit := { hs.unit with } }

theorem shaped_hostReset (hs : Shaped s) : Shaped (hostReset s) :=
  { hs with
    context := contextShaped_freeContext s
    working := workingShaped_freeWorking s
    sum := length_freeWide s 40
    unit := { hs.unit with sel := nofun }
    captured := rfl }

theorem shaped_resetFor (d : Degree) : Shaped (State.resetFor d) where
  context := by constructor <;> intro i <;> simp [State.resetFor, WideShaped]
  working := by constructor <;> simp [State.resetFor, WideShaped]
  sum := List.length_replicate
  unit :=
    { sel := nofun
      a := List.length_replicate
      b := List.length_replicate
      buf := by simp [State.resetFor, bufferWellFormed]
      outWide := List.length_replicate
      outBuf := by simp [State.resetFor, bufferWellFormed] }
  captured := rfl
  presented := rfl
  coming := nofun

end Shape

/-- Settles O54: the zeros have D lanes, and P_IDLE has no entry condition. -/
theorem resetStateIsSafe : Obligations.ResetStateIsSafe :=
  fun d => (shaped_resetFor d).safe trivial fun h => absurd rfl h

section Control

/-- What steers the sequencer (R32, R110). -/
structure Control where
  degree : Degree
  phase : Phase
  /-- LEN while a command is in progress; in P_IDLE, where it steers nothing, 0. -/
  len : Nat
  pos : Nat
  cnt : Fin 4
  idx : Fin 9
  ctxValid : Bool
  tagValid : Bool

/-- What steers the sequencer in a state. -/
def control (s : State) : Control where
  degree := s.degree
  phase := s.phase
  len := if s.phase = .idle then 0 else s.len
  pos := s.pos
  cnt := s.cnt
  idx := s.idx
  ctxValid := s.ctxValid
  tagValid := s.tagValid

/-- The transition table of R124, with the counters and flags. -/
def Control.next (c : Control) : Control :=
  match c.phase with
  | .idle => c
  | .ks => { c with ctxValid := true, phase := .idle, len := 0 }
  | .start => { c with pos := 0, phase := absorbPhase c.degree c.len 0 }
  | .full =>
    { c with
      pos := c.pos + c.degree.superBytes
      phase := absorbPhase c.degree c.len (c.pos + c.degree.superBytes) }
  | .pad => { c with cnt := 0, phase := .blank }
  | .blank =>
    if c.cnt = 3 then { c with idx := 0, phase := .mod }
    else { c with cnt := c.cnt + 1, phase := .blank }
  | .mod =>
    if c.idx = 8 then { c with phase := .fold }
    else { c with idx := c.idx + 1, phase := .mod }
  | .fold => { c with phase := .nonce }
  | .nonce => { c with phase := .emit }
  | .emit => { c with tagValid := true, phase := .idle, len := 0 }

variable {s t : State} {c : Control}

theorem absorbPhase_eq_full {d : Degree} {len pos : Nat} (h : d.superBytes ≤ len - pos) :
    absorbPhase d len pos = .full :=
  if_pos h

theorem absorbPhase_eq_pad {d : Degree} {len pos : Nat} (h : len - pos < d.superBytes) :
    absorbPhase d len pos = .pad :=
  if_neg (Nat.not_le.2 h)

theorem absorbPhase_ne {p : Phase} (hfull : p ≠ .full) (hpad : p ≠ .pad) (d : Degree)
    (len pos : Nat) : absorbPhase d len pos ≠ p := by
  unfold absorbPhase
  split
  · exact hfull.symm
  · exact hpad.symm

@[simp] theorem absorbPhase_ne_idle (d : Degree) (len pos : Nat) :
    absorbPhase d len pos ≠ .idle :=
  absorbPhase_ne (by decide) (by decide) d len pos

/-- The absorbing phases are entered under their entry conditions (R104, R105). -/
theorem entryCondition_of_absorbPhase (hphase : t.phase = absorbPhase t.degree t.len t.pos)
    (hctx : t.ctxValid = true) (hc : MessageCaptured t) (hdvd : t.degree.superBytes ∣ t.pos)
    (hle : t.pos ≤ t.len) : EntryCondition t := by
  have hpos := Degree.superBytes_pos t.degree
  by_cases h : t.degree.superBytes ≤ t.len - t.pos
  · rw [absorbPhase_eq_full h] at hphase
    simp only [EntryCondition, hphase]
    exact ⟨hctx, hc, hdvd, by omega⟩
  · rw [absorbPhase_eq_pad (Nat.not_le.1 h)] at hphase
    simp only [EntryCondition, hphase]
    exact ⟨hctx, hc, hdvd, hle, by omega⟩

/-- P_FULL inside the message (R105). -/
theorem exec_pFull_of_captured (hc : MessageCaptured s)
    (h : s.pos + s.degree.superBytes ≤ s.len) :
    ∃ buf, memRead s s.pos s.degree.superBytes = some buf ∧
      exec .pFull s = .next
        { s with
          work := roundOn s.degree s.work buf
          pos := s.pos + s.degree.superBytes
          phase := absorbPhase s.degree s.len (s.pos + s.degree.superBytes) } := by
  obtain ⟨buf, hread⟩ := memRead_isSome hc h
  exact ⟨buf, hread, by simp only [exec, execPFull, hread]⟩

/-- P_PAD on less than a superblock (R106). -/
theorem exec_pPad_of_captured (hc : MessageCaptured s) (hle : s.pos ≤ s.len)
    (h : s.len < s.pos + s.degree.superBytes) :
    ∃ rest, memRead s s.pos (s.len - s.pos) = some rest ∧
      exec .pPad s = .next
        { s with
          work := roundOn s.degree s.work (padBuffer s.degree rest)
          cnt := 0
          phase := .blank } := by
  obtain ⟨rest, hread⟩ := memRead_isSome (a := s.pos) (n := s.len - s.pos) hc (by omega)
  refine ⟨rest, hread, ?_⟩
  simp only [exec, execPPad, hread]
  exact if_pos (by omega)

/-- Under its entry condition a phase completes and enters the next one under that one's entry
condition, and what steers the sequencer goes by the table (R124). -/
theorem internalStep_follows_table (hsel : s.unit.sel = none) (he : EntryCondition s) :
    ∃ t, internalStep s = .next t ∧ EntryCondition t ∧ control t = (control s).next := by
  cases hphase : s.phase with
  | idle =>
    refine ⟨s, internalStep_of_waiting ⟨hphase, hsel⟩, he, ?_⟩
    simp [control, Control.next, hphase]
  | ks =>
    rw [internalStep_of_phase (i := .pKs) hsel (by rw [hphase]; rfl)]
    refine ⟨_, rfl, trivial, ?_⟩
    simp [control, Control.next, hphase]
  | start =>
    simp only [EntryCondition, hphase] at he
    obtain ⟨hctx, hc⟩ := he
    rw [internalStep_of_phase (i := .pStart) hsel (by rw [hphase]; rfl)]
    refine ⟨_, rfl, entryCondition_of_absorbPhase rfl hctx hc (dvd_zero _) (Nat.zero_le _), ?_⟩
    simp [control, Control.next, hphase]
  | full =>
    obtain ⟨hctx, hc, hdvd, hle⟩ := entryCondition_full he hphase
    obtain ⟨buf, -, hexec⟩ := exec_pFull_of_captured hc hle
    rw [internalStep_of_phase (i := .pFull) hsel (by rw [hphase]; rfl), hexec]
    refine ⟨_, rfl, entryCondition_of_absorbPhase rfl hctx hc (hdvd.add (dvd_refl _)) hle, ?_⟩
    simp [control, Control.next, hphase]
  | pad =>
    obtain ⟨hctx, hc, htail⟩ := entryCondition_pad he hphase
    obtain ⟨rest, -, hexec⟩ := exec_pPad_of_captured hc htail.2.1 htail.2.2
    rw [internalStep_of_phase (i := .pPad) hsel (by rw [hphase]; rfl), hexec]
    refine ⟨_, rfl, ⟨hctx, htail⟩, ?_⟩
    simp [control, Control.next, hphase]
  | blank =>
    simp only [EntryCondition, hphase] at he
    rw [internalStep_of_phase (i := .pBlank) hsel (by rw [hphase]; rfl)]
    by_cases hcnt : s.cnt = 3
    · refine ⟨_, exec_pBlank_last hcnt, he, ?_⟩
      simp [control, Control.next, hphase, hcnt]
    · refine ⟨_, exec_pBlank_inner hcnt, he, ?_⟩
      simp [control, Control.next, hphase, hcnt]
  | mod =>
    simp only [EntryCondition, hphase] at he
    rw [internalStep_of_phase (i := .pMod) hsel (by rw [hphase]; rfl)]
    by_cases hidx : s.idx = 8
    · refine ⟨_, exec_pMod_last hidx, he, ?_⟩
      simp [control, Control.next, hphase, hidx]
    · refine ⟨_, exec_pMod_inner hidx, he, ?_⟩
      simp [control, Control.next, hphase, hidx]
  | fold =>
    simp only [EntryCondition, hphase] at he
    rw [internalStep_of_phase (i := .pFold) hsel (by rw [hphase]; rfl)]
    refine ⟨_, rfl, he, ?_⟩
    simp [control, Control.next, hphase]
  | nonce =>
    simp only [EntryCondition, hphase] at he
    rw [internalStep_of_phase (i := .pNonce) hsel (by rw [hphase]; rfl)]
    refine ⟨_, rfl, he, ?_⟩
    simp [control, Control.next, hphase]
  | emit =>
    rw [internalStep_of_phase (i := .pEmit) hsel (by rw [hphase]; rfl)]
    refine ⟨_, rfl, trivial, ?_⟩
    simp [control, Control.next, hphase]

/-- What a step of the sequencer leaves beside the registers. -/
theorem internalStep_frame (hsel : s.unit.sel = none) (h : internalStep s = .next t) :
    t.degree = s.degree ∧ t.host = s.host ∧ t.unit.sel = none := by
  obtain ⟨c, _, hc, -, -⟩ | ⟨-, -, rfl⟩ | ⟨-, i, -, hexec⟩ := internalStep_next h
  · rw [hsel] at hc
    cases hc
  · exact ⟨rfl, rfl, hsel⟩
  · have hframe := exec_frame hexec
    exact ⟨hframe.degree, hframe.host, hframe.sel.trans hsel⟩

/-- The table raises TAG_VALID on the way to P_IDLE only. -/
theorem Control.tagValid_next (h : c.phase ≠ .idle → c.tagValid = false) :
    c.next.phase ≠ .idle → c.next.tagValid = false := by
  unfold Control.next
  split <;> simp_all [apply_ite]

end Control

section Invariant

variable {s t : State} {i : Instr}

/-- An operation of the round unit answers with a next state that differs in the unit's wires, when
the operand of WLOAD is well formed. -/
theorem exec_unit_completes {c : BitVec 3} (hi : decodeU3 c = .ok i)
    (hbuf : bufferWellFormed s.degree s.unit.buf = true) :
    ∃ u, exec i s = .next { s with unit := u } := by
  obtain ⟨-, rfl⟩ | ⟨-, rfl⟩ | ⟨-, rfl⟩ | ⟨-, rfl⟩ | ⟨-, rfl⟩ | ⟨-, rfl⟩ | ⟨-, rfl⟩ :=
    decodeU3_ok hi
  case inr.inr.inr.inl => exact ⟨_, if_pos hbuf⟩
  all_goals exact ⟨_, rfl⟩

theorem internalStep_safe (hs : SafeState s) : ∃ t, internalStep s = .next t ∧ SafeState t := by
  cases hsel : s.unit.sel with
  | none =>
    obtain ⟨t, ht, hentry, hcontrol⟩ := internalStep_follows_table hsel hs.entry
    have hshape : Shaped t := by
      obtain ⟨c, _, hc, -, -⟩ | ⟨-, -, rfl⟩ | ⟨-, i, -, hexec⟩ := internalStep_next ht
      · rw [hsel] at hc
        cases hc
      · exact shaped_of_safe hs
      · exact exec_keeps_shape (shaped_of_safe hs) hexec
    have htag : (control t).phase ≠ .idle → (control t).tagValid = false := by
      rw [hcontrol]
      exact Control.tagValid_next hs.tag
    exact ⟨t, ht, hshape.safe hentry htag⟩
  | some c =>
    have hc : c ≠ 0b111 := fun hc => hs.unit.sel (hc ▸ hsel)
    obtain ⟨i, hi⟩ := decodeU3_of_ne c hc
    have hshape : Shaped { s with unit := { s.unit with sel := none } } :=
      { shaped_of_safe hs with unit := { hs.unit with sel := nofun } }
    obtain ⟨u, hexec⟩ := exec_unit_completes hi hshape.unit.buf
    rw [internalStep_of_unit hsel hi]
    exact ⟨_, hexec, (exec_keeps_shape hshape hexec).safe hs.entry hs.tag⟩

theorem safe_answered (hs : SafeState s) (a : Answer) : SafeState (answered s a) :=
  ⟨hs.context, hs.working, hs.sum, hs.unit, hs.captured, hs.presented, hs.coming, hs.entry, hs.tag⟩

/-- A command that is accepted leaves a safe state (R122, R123). -/
theorem safe_of_accepted {c : BitVec 8} (hs : Shaped s) (hi : decodeH c = .ok i)
    (h : exec i s = .next t) : SafeState t := by
  have hshape := exec_keeps_shape hs h
  obtain ⟨-, rfl⟩ | ⟨-, rfl⟩ := decodeH_ok hi
  · obtain ⟨-, rfl⟩ := execInit_next h
    exact hshape.safe rfl fun _ => rfl
  · obtain ⟨-, hctx, rfl⟩ := execMac_next h
    exact hshape.safe ⟨hctx, fun _ => isSome_read_capture⟩ fun _ => rfl

theorem hostCommand_safe {p : Ports} (hs : SafeState s) (hp : p.msg.wf = true) :
    ∃ t, hostCommand s p = .next t ∧ SafeState t := by
  have hshape : Shaped { s with ports := p, answer := some .accepted } :=
    { shaped_of_safe hs with presented := hp }
  cases hi : decodeH p.cmd with
  | error e =>
    refine ⟨_, ?_, safe_answered hs (.refused .reservedCommand)⟩
    simp only [hostCommand, hi]
  | ok i =>
    cases hexec : exec i { s with ports := p, answer := some .accepted } with
    | next t => exact ⟨t, hostCommand_of_next hi hexec, safe_of_accepted hshape hi hexec⟩
    | fault f => exact absurd hexec (exec_ne_fault i _ f)
    | refused r => exact ⟨_, hostCommand_of_refused hi hexec, safe_answered hs _⟩

theorem hostStep_safe {a : HostAction} (hs : SafeState s)
    (ha : ∀ p, a = .command p → p.msg.wf = true) :
    ∃ t, hostStep s a = .next t ∧ SafeState t := by
  cases a with
  | pass => exact internalStep_safe hs
  | command p => exact hostCommand_safe hs (ha p rfl)
  | readTag | readInfo => exact ⟨_, rfl, safe_answered hs _⟩
  | reset =>
    have hreset : SafeState (hostReset s) :=
      (shaped_hostReset (shaped_of_safe hs)).safe trivial fun h => absurd rfl h
    exact ⟨_, rfl, safe_answered hreset _⟩

/-- From a safe state every step goes on, to a safe state. -/
theorem step_safe (hs : SafeState s) : ∃ t, step s = .next t ∧ SafeState t := by
  cases hhost : s.host with
  | nil =>
    rw [step_of_host_nil s hhost]
    exact internalStep_safe hs
  | cons a rest =>
    have hcoming : ∀ p, HostAction.command p ∈ a :: rest → p.msg.wf = true := hhost ▸ hs.coming
    have hrest : SafeState { s with host := rest } :=
      ⟨hs.context, hs.working, hs.sum, hs.unit, hs.captured, hs.presented,
        fun p hp => hcoming p (List.mem_cons_of_mem a hp), hs.entry, hs.tag⟩
    rw [step_of_host_cons s rest a hhost]
    exact hostStep_safe hrest fun p hp => hcoming p (hp ▸ List.mem_cons_self)

end Invariant

/-- Settles O55: the sequencer follows its table under the entry conditions, a unit operation touches
its wires only, and a host action is a command, which is refused or accepted, a read or a reset. -/
theorem safeStateStepsToSafeState : Obligations.SafeStateStepsToSafeState := fun _ => step_safe

end Sys2Proof.Proofs
end

section
/-! PROOFS. Control flow (45_commands.md section 3, 43_absorption.md section 4): the transition table
row by row, its independence of data, the number of steps of a MAC, and the whole commands INIT and
MAC (45_commands.md section 5). -/

-- As in the tests, each theorem is checked in place: one that waits for the kernel beside the others
-- costs a thread, and so memory.
set_option Elab.async false

namespace Sys2Proof.Proofs

open Sys2Proof.Machine Sys2Proof.Safety Sys2Proof.Laws

section Table

variable {s t : State}

/-- LEN after a step that stays in a command. -/
theorem len_of_control_eq_next (h : control t = (control s).next) (hs : s.phase ≠ .idle)
    (ht : t.phase ≠ .idle) : t.len = s.len := by
  have hlen : (control t).len = t.len := if_neg ht
  have hkeep : (control s).next.phase ≠ .idle → (control s).next.len = s.len := by
    unfold Control.next
    split <;> simp_all [control, apply_ite]
  rw [← hlen, h]
  exact hkeep (h ▸ ht)

/-- After P_FULL the phase goes by what is then left of the message (R105). -/
theorem phase_after_full (h : control t = (control s).next) (hp : s.phase = .full) :
    t.phase = absorbPhase s.degree t.len t.pos := by
  have hphase : t.phase = absorbPhase s.degree s.len (s.pos + s.degree.superBytes) := by
    have hnext := congrArg Control.phase h
    simpa [Control.next, control, hp] using hnext
  have hpos : t.pos = s.pos + s.degree.superBytes := by
    have hnext := congrArg Control.pos h
    simpa [Control.next, control, hp] using hnext
  have hlen : t.len = s.len :=
    len_of_control_eq_next h (by rw [hp]; decide) (hphase ▸ absorbPhase_ne_idle _ _ _)
  rw [hphase, hlen, hpos]

end Table

/-- Settles O6: each row read off the table, the absorbing phase by what is left of the message. -/
theorem phasesFollowTheTransitionTable : Obligations.PhasesFollowTheTransitionTable := by
  intro s hs hhost hsel
  obtain ⟨t, hstep, -, hcontrol⟩ := internalStep_follows_table hsel hs.entry
  have hphase : t.phase = (control s).next.phase := congrArg Control.phase hcontrol
  have hcnt : t.cnt = (control s).next.cnt := congrArg Control.cnt hcontrol
  have hidx : t.idx = (control s).next.idx := congrArg Control.idx hcontrol
  refine ⟨t, by rw [step_of_host_nil s hhost, hstep], fun hp => ?_, fun hp => ?_, fun hp h => ?_,
    fun hp h => ?_, fun hp h => ?_, fun hp h => ?_, fun hp => ?_, fun hp h => ?_, fun hp h => ?_,
    fun hp h => ?_, fun hp h => ?_, fun hp => ?_, fun hp => ?_, fun hp => ?_⟩
  case refine_3 => simp [hphase, Control.next, control, hp, absorbPhase_eq_full, h]
  case refine_4 => simp [hphase, Control.next, control, hp, absorbPhase_eq_pad, h]
  case refine_5 => rw [phase_after_full hcontrol hp, absorbPhase_eq_full h]
  case refine_6 => rw [phase_after_full hcontrol hp, absorbPhase_eq_pad h]
  case refine_8 =>
    rw [← val_add_one_of_ne_last h.ne]
    simp [hphase, hcnt, Control.next, control, hp, h.ne]
  case refine_9 => simp [hphase, hidx, Control.next, control, hp, h]
  case refine_10 =>
    rw [← val_add_one_of_ne_last h.ne]
    simp [hphase, hidx, Control.next, control, hp, h.ne]
  case refine_11 => simp [hphase, Control.next, control, hp, h]
  all_goals simp [hphase, Control.next, control, hp]

section SameControl

variable {s s' : State}

theorem control_eq_of_sameControl (h : SameControl s s') : control s = control s' := by
  have hlen : (control s).len = (control s').len := by
    simp only [control, ← h.phase]
    split
    next => rfl
    next hp => exact h.len hp
  simp only [control] at hlen ⊢
  rw [hlen, h.degree, h.phase, h.pos, h.cnt, h.idx, h.ctxValid, h.tagValid]

theorem sameControl_of_control_eq (safe : SafeState s ∧ SafeState s')
    (host : s.host = [] ∧ s'.host = []) (unit : s.unit.sel = none ∧ s'.unit.sel = none)
    (h : control s = control s') : SameControl s s' where
  safe := safe
  host := host
  unit := unit
  degree := congrArg Control.degree h
  phase := congrArg Control.phase h
  len hp := by
    have hphase : s.phase = s'.phase := congrArg Control.phase h
    have hlen : (control s).len = (control s').len := congrArg Control.len h
    rwa [control, control, if_neg hp, if_neg (hphase ▸ hp)] at hlen
  pos := congrArg Control.pos h
  cnt := congrArg Control.cnt h
  idx := congrArg Control.idx h
  ctxValid := congrArg Control.ctxValid h
  tagValid := congrArg Control.tagValid h

/-- A step of a safe core left to the sequencer: again such a core, its control by the table. -/
theorem step_of_left_to_sequencer (hs : SafeState s) (hhost : s.host = [])
    (hsel : s.unit.sel = none) :
    ∃ t, step s = .next t ∧ SafeState t ∧ t.host = [] ∧ t.unit.sel = none ∧
      control t = (control s).next := by
  obtain ⟨t, ht, -, hcontrol⟩ := internalStep_follows_table hsel hs.entry
  obtain ⟨-, hhost', hsel'⟩ := internalStep_frame hsel ht
  obtain ⟨t', ht', hsafe⟩ := step_safe hs
  have hstep : step s = .next t := (step_of_host_nil s hhost).trans ht
  obtain rfl : t' = t := Host.Outcome.next.inj (ht'.symm.trans hstep)
  exact ⟨_, hstep, hsafe, hhost'.trans hhost, hsel', hcontrol⟩

theorem sameControl_step (h : SameControl s s') :
    ∃ t t', step s = .next t ∧ step s' = .next t' ∧ SameControl t t' := by
  obtain ⟨t, hstep, hsafe, hhost, hsel, hcontrol⟩ :=
    step_of_left_to_sequencer h.safe.1 h.host.1 h.unit.1
  obtain ⟨t', hstep', hsafe', hhost', hsel', hcontrol'⟩ :=
    step_of_left_to_sequencer h.safe.2 h.host.2 h.unit.2
  refine ⟨t, t', hstep, hstep',
    sameControl_of_control_eq ⟨hsafe, hsafe'⟩ ⟨hhost, hhost'⟩ ⟨hsel, hsel'⟩ ?_⟩
  rw [hcontrol, hcontrol', control_eq_of_sameControl h]

end SameControl

section Course

variable {s : State} {p : Ports} {c c' : Control}

/-- Sequencer steps from a state under its entry condition: what steers the sequencer goes by the
table. -/
theorem run_follows_table {k : Nat} (hsel : s.unit.sel = none) (he : EntryCondition s)
    (hhost : s.host = List.replicate k .pass) :
    ∃ t, Sys2Proof.core.run k s = .next t ∧ control t = Control.next^[k] (control s) := by
  induction k generalizing s with
  | zero => exact ⟨s, rfl, rfl⟩
  | succ k ih =>
    have hpass : Sys2Proof.core.step s =
        internalStep { s with host := List.replicate k .pass } := step_of_host_pass hhost
    obtain ⟨t, ht, hentry, hcontrol⟩ :=
      internalStep_follows_table (s := { s with host := List.replicate k .pass }) hsel he
    obtain ⟨-, hrest, hsel'⟩ :=
      internalStep_frame (s := { s with host := List.replicate k .pass }) hsel ht
    obtain ⟨u, hrun, hu⟩ := ih hsel' hentry hrest
    refine ⟨u, ?_, ?_⟩
    · simp only [Host.Core.run, hpass, ht]
      exact hrun
    · rw [hu, hcontrol, Function.iterate_succ_apply]
      rfl

/-- An accepted MAC under the sequencer, whatever its message (R124). -/
theorem runHost_mac_follows_table (h : Waiting s) (hctx : s.ctxValid = true)
    (hcmd : p.cmd = 0x02) (k : Nat) :
    ∃ t, runHost s (.command p :: List.replicate k .pass) = .next t ∧
      control t = Control.next^[k] (control (macAccepted s p)) := by
  obtain ⟨hidle, hsel⟩ := h
  have haccept := drives_mac_command hidle hctx hcmd (List.replicate k .pass)
  obtain ⟨t, hrun, ht⟩ := run_follows_table (k := k)
    (s := { macAccepted s p with host := List.replicate k .pass }) hsel
    ⟨hctx, fun _ => isSome_read_capture⟩ rfl
  refine ⟨t, ?_, ht⟩
  rw [runHost, List.length_cons, List.length_replicate, Nat.add_comm]
  exact (run_add_of_run_eq_next haccept k).trans hrun

/-- Alike in what the sequencer will still read before it writes it (R124). -/
structure Control.Alike (c c' : Control) : Prop where
  degree : c.degree = c'.degree
  phase : c.phase = c'.phase
  len : c.len = c'.len
  pos : c.phase = .full ∨ c.phase = .pad → c.pos = c'.pos
  cnt : c.phase = .blank → c.cnt = c'.cnt
  idx : c.phase = .mod → c.idx = c'.idx

theorem Control.Alike.next (h : c.Alike c') : c.next.Alike c'.next := by
  obtain ⟨d, p, len, pos, cnt, idx, _, _⟩ := c
  obtain ⟨d', p', len', pos', cnt', idx', _, _⟩ := c'
  obtain ⟨hdegree, hphase, hlen, hpos, hcnt, hidx⟩ := h
  simp only at hdegree hphase hlen hpos hcnt hidx
  subst hdegree hphase hlen
  cases p with
  | idle => exact ⟨rfl, rfl, rfl, hpos, hcnt, hidx⟩
  | ks | fold | nonce | emit => exact ⟨rfl, rfl, rfl, nofun, nofun, nofun⟩
  | start =>
    exact ⟨rfl, rfl, rfl, fun _ => rfl,
      fun h => absurd h (absorbPhase_ne (by decide) (by decide) _ _ _),
      fun h => absurd h (absorbPhase_ne (by decide) (by decide) _ _ _)⟩
  | full =>
    obtain rfl := hpos (.inl rfl)
    exact ⟨rfl, rfl, rfl, fun _ => rfl,
      fun h => absurd h (absorbPhase_ne (by decide) (by decide) _ _ _),
      fun h => absurd h (absorbPhase_ne (by decide) (by decide) _ _ _)⟩
  | pad => exact ⟨rfl, rfl, rfl, nofun, fun _ => rfl, nofun⟩
  | blank =>
    obtain rfl := hcnt rfl
    by_cases hc : cnt = 3
    · simp only [Control.next, if_pos hc]
      exact ⟨rfl, rfl, rfl, nofun, nofun, fun _ => rfl⟩
    · simp only [Control.next, if_neg hc]
      exact ⟨rfl, rfl, rfl, nofun, fun _ => rfl, nofun⟩
  | mod =>
    obtain rfl := hidx rfl
    by_cases hi : idx = 8
    · simp only [Control.next, if_pos hi]
      exact ⟨rfl, rfl, rfl, nofun, nofun, nofun⟩
    · simp only [Control.next, if_neg hi]
      exact ⟨rfl, rfl, rfl, nofun, nofun, fun _ => rfl⟩

theorem Control.Alike.iterate (h : c.Alike c') (k : Nat) :
    (Control.next^[k] c).Alike (Control.next^[k] c') := by
  induction k with
  | zero => exact h
  | succ k ih =>
    rw [Function.iterate_succ_apply', Function.iterate_succ_apply']
    exact ih.next

/-- At acceptance two MACs of one length are alike (R110). -/
theorem alike_macAccepted {s' : State} {p' : Ports} (hdegree : s.degree = s'.degree)
    (hlen : p.msgLen = p'.msgLen) :
    (control (macAccepted s p)).Alike (control (macAccepted s' p')) :=
  ⟨hdegree, rfl, hlen, nofun, nofun, nofun⟩

end Course

/-- Settles O56: control after a step is a function of control before it; and the counters in which
two accepted MACs may differ are written before they are read. -/
theorem controlFlowIsIndependentOfData : Obligations.ControlFlowIsIndependentOfData := by
  refine ⟨fun _ _ => sameControl_step,
    fun s s' p p' hs hs' hdegree hctx hctx' hcmd hcmd' hlen k => ?_⟩
  obtain ⟨t, hrun, ht⟩ := runHost_mac_follows_table hs hctx hcmd k
  obtain ⟨t', hrun', ht'⟩ := runHost_mac_follows_table hs' hctx' hcmd' k
  have halike : (control t).Alike (control t') := by
    rw [ht, ht']
    exact (alike_macAccepted hdegree hlen).iterate k
  refine ⟨t, t', hrun, hrun', halike.phase, fun hreads => ⟨halike.pos hreads, ?_⟩⟩
  have hbusy : t.phase ≠ .idle := by
    intro hidle
    rw [hidle] at hreads
    obtain hreads | hreads := hreads <;> cases hreads
  have hphase : t.phase = t'.phase := halike.phase
  have hsame := halike.len
  rwa [control, control, if_neg hbusy, if_neg (hphase ▸ hbusy)] at hsame

section StepCount

variable {c : Control} {s : State} {p : Ports}

/-- How many sequencer steps are left until P_IDLE (R124, R161). -/
def Control.stepsLeft (c : Control) : Nat :=
  match c.phase with
  | .idle => 0
  | .ks => 1
  | .start => c.len / c.degree.superBytes + 18
  | .full => (c.len - c.pos) / c.degree.superBytes + 17
  | .pad => 17
  | .blank => 16 - c.cnt.val
  | .mod => 12 - c.idx.val
  | .fold => 3
  | .nonce => 2
  | .emit => 1

/-- P_FULL has a superblock left (R105). -/
def Control.Feasible (c : Control) : Prop :=
  c.phase = .full → c.pos + c.degree.superBytes ≤ c.len

theorem le_of_absorbPhase_eq_full {d : Degree} {len pos : Nat}
    (h : absorbPhase d len pos = .full) : pos + d.superBytes ≤ len := by
  have hpos := Degree.superBytes_pos d
  by_contra hlt
  rw [absorbPhase_eq_pad (by omega)] at h
  cases h

/-- The table enters P_FULL through the choice of the absorbing phase only. -/
theorem Control.feasible_next : c.next.Feasible := by
  intro h
  cases hp : c.phase with
  | start | full =>
    simp only [Control.next, hp] at h ⊢
    exact le_of_absorbPhase_eq_full h
  | blank | mod =>
    simp only [Control.next, hp] at h
    split at h <;> cases h
  | idle | ks | pad | fold | nonce | emit => simp [Control.next, hp] at h

/-- The steps left on entering an absorbing phase: one for each full superblock, and 17. -/
theorem Control.stepsLeft_of_absorbPhase
    (h : c.phase = absorbPhase c.degree c.len c.pos) :
    c.stepsLeft = (c.len - c.pos) / c.degree.superBytes + 17 := by
  by_cases hle : c.degree.superBytes ≤ c.len - c.pos
  · rw [absorbPhase_eq_full hle] at h
    simp only [Control.stepsLeft, h]
  · rw [absorbPhase_eq_pad (Nat.not_le.1 hle)] at h
    simp only [Control.stepsLeft, h, Nat.div_eq_of_lt (Nat.not_le.1 hle), Nat.zero_add]

theorem Control.stepsLeft_next (hf : c.Feasible) : c.next.stepsLeft = c.stepsLeft - 1 := by
  have hsuper := Degree.superBytes_pos c.degree
  cases hp : c.phase with
  | start =>
    have hnext : c.next = { c with pos := 0, phase := absorbPhase c.degree c.len 0 } := by
      simp only [Control.next, hp]
    rw [hnext, Control.stepsLeft_of_absorbPhase rfl]
    simp [Control.stepsLeft, hp]
  | full =>
    have hle := hf hp
    have hnext : c.next =
        { c with
          pos := c.pos + c.degree.superBytes
          phase := absorbPhase c.degree c.len (c.pos + c.degree.superBytes) } := by
      simp only [Control.next, hp]
    have hdiv : (c.len - c.pos) / c.degree.superBytes =
        (c.len - (c.pos + c.degree.superBytes)) / c.degree.superBytes + 1 := by
      rw [Nat.div_eq_sub_div hsuper (by omega), Nat.sub_sub]
    rw [hnext, Control.stepsLeft_of_absorbPhase rfl]
    simp only [Control.stepsLeft, hp, hdiv]
    rw [Nat.add_right_comm, Nat.add_sub_cancel]
  | blank =>
    by_cases hc : c.cnt = 3
    · simp [Control.stepsLeft, Control.next, hp, hc]
    · have hval := val_add_one_of_ne_last hc
      simp only [Control.stepsLeft, Control.next, hp, hc, if_false, hval]
      omega
  | mod =>
    by_cases hi : c.idx = 8
    · simp [Control.stepsLeft, Control.next, hp, hi]
    · have hval := val_add_one_of_ne_last hi
      simp only [Control.stepsLeft, Control.next, hp, hi, if_false, hval]
      omega
  | idle | ks | pad | fold | nonce | emit => simp [Control.stepsLeft, Control.next, hp]

theorem Control.stepsLeft_iterate (hf : c.Feasible) (k : Nat) :
    (Control.next^[k] c).stepsLeft = c.stepsLeft - k := by
  induction k generalizing c with
  | zero => rfl
  | succ k ih =>
    rw [Function.iterate_succ_apply, ih Control.feasible_next, Control.stepsLeft_next hf,
      Nat.sub_sub, Nat.add_comm]

/-- Before its last step a MAC is in progress (R124). -/
theorem runHost_mac_busy (h : Waiting s) (hctx : s.ctxValid = true) (hcmd : p.cmd = 0x02)
    {k : Nat} (hk : k < p.msgLen / s.degree.superBytes + 18) :
    ∃ t, runHost s (.command p :: List.replicate k .pass) = .next t ∧ t.phase ≠ .idle := by
  obtain ⟨t, hrun, ht⟩ := runHost_mac_follows_table h hctx hcmd k
  have hf : (control (macAccepted s p)).Feasible := nofun
  have hleft : (control t).stepsLeft = p.msgLen / s.degree.superBytes + 18 - k := by
    rw [ht, Control.stepsLeft_iterate hf]
    rfl
  refine ⟨t, hrun, fun hidle => ?_⟩
  have hzero : (control t).stepsLeft = 0 := by simp only [Control.stepsLeft, control, hidle]
  omega

end StepCount

/-- Settles O58: the stages of a MAC compute `mac_D`, and the steps left reach 0 with the last
one. -/
theorem macComputesTheTag : Obligations.MacComputesTheTag := by
  intro s p m h hctx hcmd hlen hmsg
  obtain ⟨t, hdrives, ht⟩ := drives_mac ⟨h, rfl, rfl, hctx⟩ hcmd hlen hmsg
  refine ⟨⟨_, hdrives.runHost_eq, ht.waiting, rfl, ht.tagValid, ht.tagOut, ht.ctx, ht.ctxValid,
    ht.degree⟩, fun k hk => ?_⟩
  exact runHost_mac_busy h hctx hcmd (hlen ▸ hk)

/-- Settles O57: INIT builds the context of the key on the port, and the port carries the key. -/
theorem initComputesTheContext : Obligations.InitComputesTheContext := by
  rintro s key ⟨hidle, hsel⟩
  have hdrives : Drives s (initTrace key) _ :=
    (drives_init_command hidle rfl).cons (drives_pKs hsel rfl)
  exact ⟨_, hdrives.runHost_eq, ⟨rfl, hsel⟩, rfl,
    congrArg (contextOf s.degree) (blockOfPort_portOfBlock key), rfl, rfl, rfl⟩

end Sys2Proof.Proofs
end

section
/-! PROOFS. The statements of 40_block_primitives.md about the AES round on wide values (R71, R75):
it acts on each lane separately, the key enters last, and for every key it is a bijection. Then those
of 42_key_schedule.md: the context lane by lane (R93, R94, R97), and that degrees separate it. -/

-- As in the tests, each theorem is checked in place: one that waits for the kernel beside the others
-- costs a thread, and so memory.
set_option Elab.async false

namespace Sys2Proof.Proofs

open Sys2Proof.Machine Sys2Proof.Safety Sys2Proof.Laws

section Lanewise

variable {d : Degree} {a b k : Wide} {l : Nat} {x y : Block128}

theorem getElem?_wideXor (hx : a[l]? = some x) (hy : b[l]? = some y) :
    (wideXor a b)[l]? = some (x.xor y) := by
  simp [wideXor, List.getElem?_zipWith, hx, hy]

theorem getElem?_wideAesRound (hx : a[l]? = some x) (hy : b[l]? = some y) :
    (wideAesRound a b)[l]? = some (aesRound1 x y) := by
  simp [wideAesRound, List.getElem?_zipWith, hx, hy]

theorem getElem?_wideZero (h : l < d.lanes) : (wideZero d)[l]? = some Block128.zero :=
  List.getElem?_replicate_of_lt h

/-- A lane that a value of D lanes has is below D. -/
theorem lt_lanes_of_getElem? (ha : WideShaped d a) (hx : a[l]? = some x) : l < d.lanes :=
  ha ▸ (List.getElem?_eq_some_iff.1 hx).1

/-- The round key enters by one XOR after MixColumns (R75). -/
theorem aesRound1_eq_xor (x k : Block128) : aesRound1 x k = (aesRound1 x .zero).xor k := by
  simp only [aesRound1, addRoundKey, Block128.xor_zero]

theorem wideAesRound_eq_wideXor (ha : WideShaped d a) (hk : WideShaped d k) :
    wideAesRound a k = wideXor (wideAesRound a (wideZero d)) k := by
  refine List.ext_getElem? fun l => ?_
  by_cases hl : l < d.lanes
  · have hx : a[l]? = some a[l] := List.getElem?_eq_getElem (ha ▸ hl)
    have hy : k[l]? = some k[l] := List.getElem?_eq_getElem (hk ▸ hl)
    rw [getElem?_wideAesRound hx hy,
      getElem?_wideXor (getElem?_wideAesRound hx (getElem?_wideZero hl)) hy, aesRound1_eq_xor]
  · have hshape := wideShaped_wideAesRound ha (length_wideZero d)
    rw [List.getElem?_eq_none (by simpa [wideShaped_wideAesRound ha hk] using hl),
      List.getElem?_eq_none (by simpa [wideShaped_wideXor hshape hk] using hl)]

/-- 0x63 is the S-box of zero, and MixColumns keeps a column of equal bytes (R78, R153). -/
theorem aesRound1_zero_zero : aesRound1 .zero .zero = blockOf (List.replicate 16 0x63) := by
  decide +kernel

theorem wideAesRound_wideZero (d : Degree) :
    wideAesRound (wideZero d) (wideZero d) =
      List.replicate d.lanes (blockOf (List.replicate 16 0x63)) := by
  rw [wideAesRound, wideZero, List.zipWith_replicate', aesRound1_zero_zero]

end Lanewise

/-- Settles O24: lane by lane. -/
theorem wideOperationsAreLanewise : Obligations.WideOperationsAreLanewise :=
  fun d _ _ ha hb => ⟨length_wideZero d, wideShaped_wideXor ha hb, wideShaped_wideAesRound ha hb,
    fun _ _ _ hx hy => ⟨getElem?_wideZero (lt_lanes_of_getElem? ha hx), getElem?_wideXor hx hy,
      getElem?_wideAesRound hx hy⟩⟩

/-- Settles O26: one lane, then all of them. -/
theorem roundKeyIsXoredLast : Obligations.RoundKeyIsXoredLast :=
  fun d _ _ ha hk => ⟨wideAesRound_eq_wideXor ha hk, wideAesRound_wideZero d⟩

section Bijection

open Function

/-- The inverse of R76 undoes itself. -/
theorem gfInv_gfInv (x : Byte) : gfInv (gfInv x) = x := by
  by_cases hx : x = 0
  · rw [hx, gfInv_zero, gfInv_zero]
  · have hinv : gfInv x ≠ 0 := by
      intro hzero
      have hone := gfInv_gfMul hx
      rw [hzero, zero_gfMul] at hone
      exact absurd hone (by decide)
    exact (eq_gfInv hinv (gfInv_gfMul hx)).symm

/-- The inverse of a byte is read off its S-box value, and the byte is the inverse of its
inverse. -/
theorem sbox_injective : Injective sbox := by
  intro x y h
  have hinv : gfInv x = gfInv y := by simp only [gfInv, h]
  rw [← gfInv_gfInv x, hinv, gfInv_gfInv]

theorem sbox_bijective : Bijective sbox := Finite.injective_iff_bijective.1 sbox_injective

/-- SubWord is a bijection, byte by byte. -/
theorem subColumn_bijective : Bijective subColumn := by
  constructor
  · rintro ⟨a0, a1, a2, a3⟩ ⟨b0, b1, b2, b3⟩ h
    simp only [subColumn, Column.mk.injEq] at h
    obtain ⟨h0, h1, h2, h3⟩ := h
    rw [sbox_injective h0, sbox_injective h1, sbox_injective h2, sbox_injective h3]
  · intro c
    obtain ⟨x0, h0⟩ := sbox_bijective.2 c.b0
    obtain ⟨x1, h1⟩ := sbox_bijective.2 c.b1
    obtain ⟨x2, h2⟩ := sbox_bijective.2 c.b2
    obtain ⟨x3, h3⟩ := sbox_bijective.2 c.b3
    exact ⟨⟨x0, x1, x2, x3⟩, by rw [subColumn, h0, h1, h2, h3]⟩

/-- SubBytes is a bijection, column by column. -/
theorem subBytes_bijective : Bijective subBytes := by
  have hcol := subColumn_bijective.1
  constructor
  · rintro ⟨a0, a1, a2, a3⟩ ⟨b0, b1, b2, b3⟩ h
    simp only [subBytes, Block128.mk.injEq] at h
    obtain ⟨h0, h1, h2, h3⟩ := h
    rw [hcol h0, hcol h1, hcol h2, hcol h3]
  · intro c
    obtain ⟨x0, h0⟩ := subColumn_bijective.2 c.c0
    obtain ⟨x1, h1⟩ := subColumn_bijective.2 c.c1
    obtain ⟨x2, h2⟩ := subColumn_bijective.2 c.c2
    obtain ⟨x3, h3⟩ := subColumn_bijective.2 c.c3
    exact ⟨⟨x0, x1, x2, x3⟩, by rw [subBytes, h0, h1, h2, h3]⟩

/-- Four rotations of four rows are none. -/
theorem shiftRows_iterate_four : shiftRows^[4] = id := rfl

theorem byte_xor_left_comm (a b c : Byte) : a ^^^ (b ^^^ c) = b ^^^ (a ^^^ c) := by ac_rfl

theorem byte_xor_self_left (a b : Byte) : a ^^^ (a ^^^ b) = b := by
  rw [← BitVec.xor_assoc, BitVec.xor_self, BitVec.zero_xor]

/-- The sum of the bytes of a column. -/
def columnSum (c : Column) : Byte := c.b0 ^^^ c.b1 ^^^ c.b2 ^^^ c.b3

/-- MixColumns adds to each byte the sum of the column and the double of the byte's sum with the
next one (R78). -/
theorem mixColumn_eq (c : Column) :
    mixColumn c =
      ⟨c.b0 ^^^ columnSum c ^^^ xtime (c.b0 ^^^ c.b1),
        c.b1 ^^^ columnSum c ^^^ xtime (c.b1 ^^^ c.b2),
        c.b2 ^^^ columnSum c ^^^ xtime (c.b2 ^^^ c.b3),
        c.b3 ^^^ columnSum c ^^^ xtime (c.b3 ^^^ c.b0)⟩ := by
  simp only [mixColumn, columnSum, gfMul_three, gfMul_two, xtime_xor, Column.mk.injEq]
  refine ⟨?_, ?_, ?_, ?_⟩
  all_goals
    simp only [BitVec.xor_assoc, BitVec.xor_comm, byte_xor_left_comm, byte_xor_self_left]

/-- MixColumns twice keeps the sum of a column, and only opposite bytes are mixed. -/
theorem mixColumn_mixColumn (c : Column) :
    mixColumn (mixColumn c) =
      ⟨c.b0 ^^^ xtime (xtime (c.b0 ^^^ c.b2)), c.b1 ^^^ xtime (xtime (c.b1 ^^^ c.b3)),
        c.b2 ^^^ xtime (xtime (c.b2 ^^^ c.b0)), c.b3 ^^^ xtime (xtime (c.b3 ^^^ c.b1))⟩ := by
  rw [mixColumn_eq (mixColumn c), mixColumn_eq c]
  simp only [columnSum, xtime_xor, Column.mk.injEq]
  refine ⟨?_, ?_, ?_, ?_⟩
  all_goals
    simp only [BitVec.xor_assoc, BitVec.xor_comm, byte_xor_left_comm, byte_xor_self_left,
      BitVec.xor_self, BitVec.xor_zero, BitVec.zero_xor]

/-- MixColumns four times is nothing: the fourth power of its polynomial is 1 (R78). -/
theorem mixColumn_iterate_four (c : Column) :
    mixColumn (mixColumn (mixColumn (mixColumn c))) = c := by
  rw [mixColumn_mixColumn (mixColumn (mixColumn c)), mixColumn_mixColumn c]
  simp only [xtime_xor, BitVec.xor_assoc, BitVec.xor_comm, byte_xor_left_comm, BitVec.xor_self,
    BitVec.xor_zero]

theorem mixColumns_iterate_four : mixColumns^[4] = id := by
  funext b
  simp only [iterate_succ_apply, iterate_zero_apply, mixColumns, mixColumn_iterate_four, id_eq]

/-- A map of which a power is the identity is a bijection. -/
theorem bijective_of_iterate_eq_id {α : Type} {f : α → α} {n : Nat} (h : f^[n + 1] = id) :
    Bijective f :=
  bijective_iff_has_inverse.2 ⟨f^[n], fun x => by rw [← iterate_succ_apply, h, id_eq],
    fun x => by rw [← iterate_succ_apply' f n x, h, id_eq]⟩

theorem shiftRows_bijective : Bijective shiftRows :=
  bijective_of_iterate_eq_id shiftRows_iterate_four

theorem mixColumns_bijective : Bijective mixColumns :=
  bijective_of_iterate_eq_id mixColumns_iterate_four

/-- Adding a round key twice is nothing (R80). -/
theorem addRoundKey_bijective (k : Block128) : Bijective (addRoundKey · k) := by
  have htwice : (addRoundKey · k)^[2] = id := by
    funext b
    simp only [iterate_succ_apply, iterate_zero_apply, addRoundKey, Block128.xor_assoc,
      Block128.xor_self, Block128.xor_zero, id_eq]
  exact bijective_of_iterate_eq_id htwice

theorem aesRound1_bijective (k : Block128) : Bijective (aesRound1 · k) :=
  (addRoundKey_bijective k).comp
    (mixColumns_bijective.comp (shiftRows_bijective.comp subBytes_bijective))

theorem aesLast_bijective (k : Block128) : Bijective (aesLast · k) :=
  (addRoundKey_bijective k).comp (shiftRows_bijective.comp subBytes_bijective)

theorem injective_aesRound1_comp (k : Block128) {f : Block128 → Block128} (hf : Injective f) :
    Injective fun p => aesRound1 (f p) k :=
  (aesRound1_bijective k).1.comp hf

/-- For every key schedule AES-128 is injective: the first round key, nine full rounds, the last
round (R87). -/
theorem aesEncrypt_injective (rk : Sched) : Injective (aesEncrypt rk) :=
  (aesLast_bijective rk[10]).1.comp <|
    injective_aesRound1_comp rk[9] <| injective_aesRound1_comp rk[8] <|
    injective_aesRound1_comp rk[7] <| injective_aesRound1_comp rk[6] <|
    injective_aesRound1_comp rk[5] <| injective_aesRound1_comp rk[4] <|
    injective_aesRound1_comp rk[3] <| injective_aesRound1_comp rk[2] <|
    injective_aesRound1_comp rk[1] <| (addRoundKey_bijective rk[0]).1

/-- A lanewise operation that is injective on each lane is injective on values of one shape. -/
theorem zipWith_left_injective {f : Block128 → Block128 → Block128} (hf : ∀ k, Injective (f · k))
    {a b k : Wide} (ha : a.length = k.length) (hb : b.length = k.length)
    (h : List.zipWith f a k = List.zipWith f b k) : a = b := by
  induction k generalizing a b with
  | nil => rw [List.length_eq_zero_iff.1 ha, List.length_eq_zero_iff.1 hb]
  | cons y k ih =>
    match a, b, ha, hb with
    | x :: a, x' :: b, ha, hb =>
      obtain ⟨hhead, htail⟩ := List.cons.inj h
      rw [hf y hhead, ih (Nat.succ.inj ha) (Nat.succ.inj hb) htail]

/-- A lanewise operation that is surjective on each lane is surjective on values of one shape. -/
theorem zipWith_left_surjective {f : Block128 → Block128 → Block128}
    (hf : ∀ k, Surjective (f · k)) {k y : Wide} (h : y.length = k.length) :
    ∃ a : Wide, a.length = k.length ∧ List.zipWith f a k = y := by
  induction k generalizing y with
  | nil => exact ⟨[], rfl, (List.length_eq_zero_iff.1 h).symm⟩
  | cons x k ih =>
    match y, h with
    | z :: y, h =>
      obtain ⟨b, hb⟩ := hf x z
      obtain ⟨a, hlen, ha⟩ := ih (Nat.succ.inj h)
      exact ⟨b :: a, congrArg Nat.succ hlen, congrArg₂ List.cons hb ha⟩

end Bijection

/-- Settles O27: SubBytes is a bijection because bytes have unique inverses, ShiftRows and
MixColumns because their fourth powers are the identity; then lane by lane. -/
theorem aesRoundIsABijection : Obligations.AesRoundIsABijection := by
  refine fun d k hk => ⟨fun a b ha hb h => ?_, fun y hy => ?_⟩
  · exact zipWith_left_injective (fun k => (aesRound1_bijective k).1) (ha.trans hk.symm)
      (hb.trans hk.symm) h
  · obtain ⟨a, hlen, ha⟩ :=
      zipWith_left_surjective (fun k => (aesRound1_bijective k).2) (hy.trans hk.symm)
    exact ⟨a, hlen.trans hk, ha⟩

section Context

variable {d : Degree} {l : Nat}

/-- The context block of a position has in lane `l` the encryption of that lane's input (R93,
R94). -/
theorem getElem?_contextBlock (eK : Sched) (pos : Nat) (hl : l < d.lanes) :
    (contextBlock d eK pos)[l]? = some (aesEncrypt eK (ksin d pos l)) := by
  rw [contextBlock, pack_eq_self (by simp [WideShaped])]
  simp [hl]

/-- Byte 15 of a key-schedule input is `D - 1` (R58). -/
theorem degree_eq_of_ksin_eq {d' : Degree} {pos l' : Nat} (hpos : pos < 256)
    (h : ksin d pos l = ksin d' pos l') : d = d' := by
  have hbytes := congrArg blockBytes h
  rw [blockBytes_ksin d l hpos, blockBytes_ksin d' l' hpos] at hbytes
  have hlast : BitVec.ofNat 8 (d.lanes - 1) = BitVec.ofNat 8 (d'.lanes - 1) :=
    Option.some.inj (congrArg (·[15]?) hbytes)
  revert hlast
  cases d <;> cases d' <;> decide

end Context

/-- Settles O35: the context lane by lane; the two schedules and the frame by definition. -/
theorem keyScheduleBuildsTheContext : Obligations.KeyScheduleBuildsTheContext := by
  intro s
  have hshape := contextShaped_contextOf s.degree s.k
  refine ⟨_, rfl, fun i l hl => ?_, fun i l hl => ?_, hshape.initState, hshape.subkey, rfl, rfl,
    ⟨fun _ => rfl, fun _ => rfl⟩, rfl⟩
  · simp [contextOf, getElem?_contextBlock _ _ hl]
  · simp [contextOf, getElem?_contextBlock _ _ hl]

/-- Settles O37: the inputs differ in byte 15, and the encryption is injective. -/
theorem degreesGiveDifferentContextLanes : Obligations.DegreesGiveDifferentContextLanes := by
  rintro d d' key pos l l' x y hd hpos hx hy rfl
  have hl : l < d.lanes := lt_lanes_of_getElem? (length_contextBlock d _ pos) hx
  have hl' : l' < d'.lanes := lt_lanes_of_getElem? (length_contextBlock d' _ pos) hy
  rw [getElem?_contextBlock _ _ hl] at hx
  rw [getElem?_contextBlock _ _ hl'] at hy
  have hsame := aesEncrypt_injective (keyExpand key) (Option.some.inj (hx.trans hy.symm))
  exact hd (degree_eq_of_ksin_eq (by omega) hsame)

end Sys2Proof.Proofs
end

section
/-! PROOFS. The rest of 43_absorption.md (superblocks, P_FULL, P_PAD), of 44_finalization.md (AESMOD,
the fold of the lanes), and the tags of 95_test_vectors.md section 1.1. -/

-- As in the tests, each theorem is checked in place: one that waits for the kernel beside the others
-- costs a thread, and so memory.
set_option Elab.async false

namespace Sys2Proof.Proofs

open Sys2Proof.Machine Sys2Proof.Safety Sys2Proof.Laws

section PaddedMessage

variable (d : Degree) (m : List Byte)

theorem length_superblocks : (superblocks d m).length = m.length / d.superBytes + 1 := by
  simp [superblocks]

/-- Each superblock has SB bytes: a full one lies inside the message, the last one is padded (R105,
R106). -/
theorem length_of_mem_superblocks {b : List Byte} (h : b ∈ superblocks d m) :
    b.length = d.superBytes := by
  simp only [superblocks, List.mem_append, List.mem_map, List.mem_range, List.mem_singleton] at h
  obtain ⟨q, hq, rfl⟩ | rfl := h
  · refine length_slice ?_
    rw [← Nat.succ_mul]
    exact (Nat.mul_le_mul_right _ hq).trans (Nat.div_mul_le_self _ _)
  · exact length_padBuffer (length_drop_lt_superBytes d m)

/-- The full superblocks are the front of the message, and the padded one begins with its rest. -/
theorem flatten_superblocks :
    (superblocks d m).flatten =
      m ++ Config.padByte :: List.replicate (d.superBytes - m.length % d.superBytes - 1) 0 := by
  have hrest : (m.drop (m.length / d.superBytes * d.superBytes)).length =
      m.length % d.superBytes := by
    rw [List.length_drop, ← Nat.mod_eq_sub_div_mul]
  rw [superblocks, List.flatten_append, flatten_slices, List.flatten_singleton, padBuffer, hrest,
    List.append_assoc, ← List.append_assoc, List.take_append_drop, List.singleton_append]

end PaddedMessage

/-- Settles O19: the number, the lengths and the concatenation of the superblocks. -/
theorem superblocksAreThePaddedMessage : Obligations.SuperblocksAreThePaddedMessage :=
  fun d m => ⟨length_superblocks d m, fun _ => length_of_mem_superblocks d m,
    flatten_superblocks d m⟩

section Absorption

variable {s : State} {d : Degree} {buf : List Byte}

/-- Wide block `j` of a superblock is its `j`th quarter (R45, R57). -/
theorem isBytesFrom_splitBlock (hlen : buf.length = d.superBytes) {byteAt : Nat → Option Byte}
    {start offset j : Nat} (h : ∀ x < d.superBytes, buf[x]? = byteAt (start + x)) (hj : j < 4)
    (hoffset : offset = start + d.wideBytes * j) :
    IsBytesFrom d (splitBlock d buf j) byteAt offset := by
  have hquarter : d.wideBytes * j + d.wideBytes ≤ d.superBytes :=
    calc d.wideBytes * j + d.wideBytes = d.wideBytes * (j + 1) := (Nat.mul_succ _ _).symm
      _ ≤ d.wideBytes * 4 := Nat.mul_le_mul_left _ hj
      _ = d.superBytes := by simp only [Degree.wideBytes, Degree.superBytes]; omega
  have hslice : (slice buf (d.wideBytes * j) d.wideBytes).length = 16 * d.lanes :=
    length_slice (hlen ▸ hquarter)
  refine ⟨length_splitBlock d buf j, fun i hi => ?_⟩
  rw [splitBlock, toBytes_fromBytes hslice, getElem?_slice _ _ _ _ hi, h _ (by omega), hoffset,
    Nat.add_assoc]

/-- The bytes of the padded rest of the captured message (R60). -/
theorem getElem?_padBuffer_eq_paddedByte {rest : List Byte}
    (hread : memRead s s.pos (s.len - s.pos) = some rest) {x : Nat} (hx : x < s.degree.superBytes) :
    (padBuffer s.degree rest)[x]? = paddedByte s (0 + x) := by
  obtain ⟨-, hlen, hbytes⟩ := memRead_eq_some.1 hread
  rw [Nat.zero_add, paddedByte, ← hlen]
  split
  next hlt => rw [getElem?_padBuffer_of_lt hlt, hbytes x (hlen ▸ hlt)]
  next hge =>
    split
    next heq => rw [heq, getElem?_padBuffer_length]; rfl
    next hne => rw [getElem?_padBuffer_of_gt (by omega) hx]

end Absorption

/-- Settles O41: the superblock read, and its four quarters. -/
theorem fullAbsorbsTheNextSuperblock : Obligations.FullAbsorbsTheNextSuperblock := by
  intro s hc hle
  obtain ⟨buf, hread, hexec⟩ := exec_pFull_of_captured hc hle
  obtain ⟨-, hlen, hbytes⟩ := memRead_eq_some.1 hread
  have hquarter {offset j : Nat} (hj : j < 4) (h : offset = s.pos + s.degree.wideBytes * j) :=
    isBytesFrom_splitBlock hlen (fun x hx => (hbytes x hx).symm) hj h
  refine ⟨splitBlock s.degree buf 0, splitBlock s.degree buf 1, splitBlock s.degree buf 2,
    splitBlock s.degree buf 3, hquarter (by decide) ?_, hquarter (by decide) ?_,
    hquarter (by decide) ?_, hquarter (by decide) ?_, hexec⟩
  all_goals
    simp only [Degree.wideBytes]
    omega

/-- Settles O42: the padded rest, and its four quarters. -/
theorem padAbsorbsThePaddedRest : Obligations.PadAbsorbsThePaddedRest := by
  intro s hc hle hlt
  obtain ⟨rest, hread, hexec⟩ := exec_pPad_of_captured hc hle hlt
  obtain ⟨-, hrest, -⟩ := memRead_eq_some.1 hread
  have hlen : (padBuffer s.degree rest).length = s.degree.superBytes := by
    refine length_padBuffer ?_
    rw [hrest, Degree.superBytes]
    omega
  have hquarter {offset j : Nat} (hj : j < 4) (h : offset = 0 + s.degree.wideBytes * j) :=
    isBytesFrom_splitBlock hlen (fun x => getElem?_padBuffer_eq_paddedByte hread) hj h
  refine ⟨splitBlock s.degree (padBuffer s.degree rest) 0,
    splitBlock s.degree (padBuffer s.degree rest) 1,
    splitBlock s.degree (padBuffer s.degree rest) 2,
    splitBlock s.degree (padBuffer s.degree rest) 3, hquarter (by decide) ?_,
    hquarter (by decide) ?_, hquarter (by decide) ?_, hquarter (by decide) ?_, hexec⟩
  all_goals
    simp only [Degree.wideBytes]
    omega

section Finalization

variable {d : Degree} {k k' : Vector Wide 18} {i : Fin 9}

/-- The keyed rounds read the nine subkeys after the window's first one (R112). -/
theorem keyedRounds_congr (h : ∀ j : Fin 9, k[i.val + (j.val + 1)] = k'[i.val + (j.val + 1)])
    (y : Wide) : keyedRounds k i y = keyedRounds k' i y := by
  simp only [keyedRounds, h]

theorem aesMod_congr
    (h : ∀ j : Fin 18, i.val ≤ j.val → j.val ≤ i.val + 9 → k[j.val] = k'[j.val]) (x : Wide) :
    aesMod d k i x = aesMod d k' i x := by
  have hfirst : k[i.val] = k'[i.val] := h ⟨i.val, by omega⟩ le_rfl (Nat.le_add_right _ _)
  have hrounds : keyedRounds k i = keyedRounds k' i :=
    funext <| keyedRounds_congr fun j =>
      h ⟨i.val + (j.val + 1), by omega⟩ (Nat.le_add_right _ _) (by simp only; omega)
  rw [aesMod, aesMod, hfirst, hrounds]

/-- A 16-byte piece of a wide value is a lane of it. -/
theorem blockOf_slice_toBytes {t : Wide} (ht : WideShaped d t) {l : Nat} (hl : l < t.length) :
    blockOf (slice (toBytes t) (16 * l) 16) = t[l] := by
  apply Option.some.inj
  rw [← getElem?_fromBytes (d := d) (toBytes t) (ht ▸ hl), fromBytes_toBytes ht,
    List.getElem?_eq_getElem hl]

/-- The fold of the lanes is their exclusive or (R114). -/
theorem foldLanes_cons {l0 : Block128} {t : Wide} (h : WideShaped d (l0 :: t)) :
    foldLanes d (l0 :: t) = t.foldl Block128.xor l0 := by
  have hlanes : d.lanes - 1 = t.length := by rw [← h]; rfl
  have hhead : blockOf (slice (toBytes (l0 :: t)) 0 16) = l0 :=
    blockOf_slice_toBytes h (l := 0) (Nat.succ_pos _)
  have htail : (List.range t.length).map
      (fun l => blockOf (slice (toBytes (l0 :: t)) (16 * (l + 1)) 16)) = t := by
    refine List.ext_getElem (by simp) fun l hl hl' => ?_
    rw [List.getElem_map, List.getElem_range, blockOf_slice_toBytes h (Nat.succ_lt_succ hl')]
    rfl
  rw [foldLanes, hlanes, hhead]
  conv_rhs => rw [← htail, List.foldl_map]

end Finalization

/-- Settles O45: the loop of nine rounds unrolled, and what it reads. -/
theorem modifiedAesReadsItsWindow : Obligations.ModifiedAesReadsItsWindow :=
  ⟨fun _ _ _ _ => rfl, fun _ _ _ _ x h => aesMod_congr h x⟩

/-- Settles O47: the fold of one, two and four lanes. -/
theorem foldXorsTheLanes : Obligations.FoldXorsTheLanes := by
  intro s hs
  have hfold {l0 : Block128} {t : Wide} (ht : s.t = l0 :: t) :
      foldLanes s.degree s.t = t.foldl Block128.xor l0 := by
    rw [ht] at hs ⊢
    exact foldLanes_cons hs
  exact ⟨_, rfl, fun _ => hfold, fun _ _ => hfold, fun _ _ _ _ => hfold⟩

section Vectors

/-! The three vectors run in the kernel, each from the context to the tag. MixColumns by the sum of a
column takes four doublings where its definition takes eight products, so the rounds are rewritten to
it first. -/

/-- MixColumns on a column by its sum. -/
def mixColumnBySum (c : Column) : Column :=
  ⟨c.b0 ^^^ columnSum c ^^^ xtime (c.b0 ^^^ c.b1), c.b1 ^^^ columnSum c ^^^ xtime (c.b1 ^^^ c.b2),
    c.b2 ^^^ columnSum c ^^^ xtime (c.b2 ^^^ c.b3), c.b3 ^^^ columnSum c ^^^ xtime (c.b3 ^^^ c.b0)⟩

/-- The full round with it. -/
def aesRoundBySum (a k : Block128) : Block128 :=
  let b := shiftRows (subBytes a)
  addRoundKey ⟨mixColumnBySum b.c0, mixColumnBySum b.c1, mixColumnBySum b.c2, mixColumnBySum b.c3⟩ k

theorem aesRound1_eq_aesRoundBySum : aesRound1 = aesRoundBySum := by
  funext a k
  simp only [aesRound1, mixColumns, mixColumn_eq, aesRoundBySum, mixColumnBySum]

theorem wideAesRound_eq_zipWith_aesRoundBySum (a k : Wide) :
    wideAesRound a k = List.zipWith aesRoundBySum a k := by
  rw [wideAesRound, aesRound1_eq_aesRoundBySum]

theorem aesEncrypt_eq_foldl_aesRoundBySum (rk : Sched) (p : Block128) :
    aesEncrypt rk p =
      aesLast ((List.finRange 9).foldl (fun y i => aesRoundBySum y rk[i.val + 1]) (p.xor rk[0]))
        rk[10] := by
  rw [aesEncrypt_eq_foldl, aesRound1_eq_aesRoundBySum]

end Vectors

/-- Settles O60: the context, the sum of AESMODs and the encryptions over that round, and each vector
evaluated. -/
theorem documentVectors : Obligations.DocumentVectors := by
  simp only [Obligations.DocumentVectors, macOf, finalize, modSum, aesMod, keyedRounds, contextOf,
    contextBlock, wideAesRound_eq_zipWith_aesRoundBySum, aesEncrypt_eq_foldl_aesRoundBySum]
  exact ⟨by decide +kernel, by decide +kernel, by decide +kernel⟩

end Sys2Proof.Proofs
end
